-- ==== Sys2Proof/Word.lean ====
section
/-! DEFINITION. The words of the block (R7, R9, R96): a byte, a nibble, a five-bit group code. -/

namespace Sys2Proof

/-- R9: a byte is 8 bits, bit 0 the least significant. -/
abbrev Byte := BitVec 8

/-- Half a byte, the unit the nibble code replaces (R96). -/
abbrev Nibble := BitVec 4

/-- A five-bit GCR code (R96). -/
abbrev Code := BitVec 5

/-- A two-bit stepper phase (R7, R106) or zone index (R43). -/
abbrev Bits2 := BitVec 2

end Sys2Proof
end

