-- ==== Sys2Proof/Syntax.lean ====
section
/-! DEFINITION. The operations of the block: one constructor of `Instr` per row of the opcode table
(R90 to R93), with the operands the spec carries beside the tag, and the request an agent presents. -/

namespace Sys2Proof

/-- The three bus lines (R107). -/
inductive Line where
  | atn
  | clock
  | data
deriving DecidableEq, Repr

/-- The two chips of a VIA drive: the bus chip and the disk chip (R210). -/
inductive ViaId where
  | viab
  | viad
deriving DecidableEq, Repr

/-- Any controller chip of a drive (R45, R60). -/
inductive ChipId where
  | viab
  | viad
  | tpi
deriving DecidableEq, Repr

/-- The disk formats (R104). -/
inductive Format where
  | d64
  | d64x40
  | d71
  | d81
  | d80
  | d82
deriving DecidableEq, Repr

/-- The operations, one constructor per row of the opcode table, in the table's order.
`d` is a drive number, `p` and `q` are participant numbers (R160), `v` is the value written. -/
inductive Instr where
  -- REG (R91): the VIA-style pair
  | viabRdPb (d : Nat)
  | viabRdPa (d : Nat)
  | viabWrPb (d : Nat) (v : Byte)
  | viabWrPa (d : Nat) (v : Byte)
  | viadRdPb (d : Nat)
  | viadRdPa (d : Nat)
  | viadWrPb (d : Nat) (v : Byte)
  | viadWrPa (d : Nat) (v : Byte)
  | viaRdDdrb (d : Nat) (c : ViaId)
  | viaRdDdra (d : Nat) (c : ViaId)
  | viaWrDdrb (d : Nat) (c : ViaId) (v : Byte)
  | viaWrDdra (d : Nat) (c : ViaId) (v : Byte)
  | viaRdCt (d : Nat) (c : ViaId) (k : Fin 4)
  | viaWrCt (d : Nat) (c : ViaId) (k : Fin 4) (v : Byte)
  -- REG (R91): the TPI6525
  | tpiRdPa (d : Nat)
  | tpiRdPb (d : Nat)
  | tpiRdPc (d : Nat)
  | tpiRdDdra (d : Nat)
  | tpiRdDdrb (d : Nat)
  | tpiRdDdrc (d : Nat)
  | tpiRdCr (d : Nat)
  | tpiRdAir (d : Nat)
  | tpiWrPa (d : Nat) (v : Byte)
  | tpiWrPb (d : Nat) (v : Byte)
  | tpiWrPc (d : Nat) (v : Byte)
  | tpiWrDdra (d : Nat) (v : Byte)
  | tpiWrDdrb (d : Nat) (v : Byte)
  | tpiWrDdrc (d : Nat) (v : Byte)
  | tpiWrCr (d : Nat) (v : Byte)
  | tpiWrAir (d : Nat) (v : Byte)
  -- EVT (R92)
  | sysReset
  | sysPwron (d : Nat)
  | sysPwroff (d : Nat)
  /-- R192: `bytes` is the backing buffer as (address, byte) pairs, an address that is not listed
  holding `0x00`; `len` is the buffer's length. -/
  | sysMount (d : Nat) (format : Format) (bytes : List Host.Cell) (len : Nat) (wp : Bool)
  | sysUnmount (d : Nat)
  | mechTick (d : Nat)
  | mechCtrl (d : Nat) (c : Byte)
  | irqRetry
  | busSet (p : Nat) (l : Line) (v : Bool)
  | busGet (l : Line)
  | parEnable (v : Bool)
  | parWrdata (v : Byte)
  | parRddata
  | parWrack (v : Bool)
  | parRdack
  | tpiIrqin (d : Nat) (n : Fin 5) (level : Bool)
  | tpiHostwr (d : Nat) (v : Bool)
  | tpiHostrd (d : Nat)
  | viaOtherirq (d : Nat) (c : ViaId) (level : Bool)
  -- FUN (R93)
  | gcrEnc4 (a b c e : Byte)
  | gcrDec5 (group : List Byte)
  | gcrEncsec (track sector id1 id2 : Byte) (data : List Byte)
  | gcrDechdr (group : List Byte)
  | gcrDecdata (groups : List Byte)
  | dskBuild (format : Format)
  /-- R140: the table is an operand ("and the table of the mounted image"). -/
  | dskOffset (table : List Nat) (track sector : Nat)
  | mechRegen (d : Nat)
  | mechStep (d : Nat) (new : Bits2)
  | busNotify (q : Nat) (l : Line) (v : Bool)
  | irqUpdate (d : Nat)
deriving DecidableEq, Repr

/-- Who performs an operation (R8). -/
inductive Agent where
  /-- The CPU of drive `d`. -/
  | driveCpu (d : Nat)
  /-- The host computer, participant 0. -/
  | host
  /-- The rotation timer of drive `d`. -/
  | rotationTimer (d : Nat)
  /-- The IRQ-retry timer. -/
  | retryTimer
  | frontend
  /-- The external interrupt wiring, and the undescribed chip interrupt sources. -/
  | wiring
  /-- No agent outside the block: the operation as another rule invokes it (R90 `FUN`; R161, by a
  drive's bus chip; R186, by a port write). -/
  | invoked
deriving DecidableEq, Repr

/-- One operation as an agent presents it: the tag, and beside it the operands, which have no bit
encoding (R90). A tag reads only the operands its row names. An operand left out is zero.
DESIGN CHOICE: the shape of the operand record (entry 1). -/
structure Request where
  /-- The 8-bit operation tag (R90). -/
  tag : Byte
  /-- The agent that performs it (R8, R286); a request that names none is `invoked` (entry 25). -/
  agent : Agent := .invoked
  /-- Drive number `d`. -/
  drive : Nat := 0
  /-- Participant number `p` or `q` (R160). -/
  participant : Nat := 0
  /-- Line number `l` (R107). -/
  line : Nat := 0
  /-- TPI interrupt input `i` (R256). -/
  input : Nat := 0
  /-- The chip operand of `VIA.OTHERIRQ` (a REG tag carries its chip in its bits). -/
  chip : ViaId := .viab
  /-- A byte operand: a written value, a control byte, or (low two bits) a stepper phase. -/
  byte : Byte := 0
  /-- A Bool operand: a level, a line value, an enable, a write-protect sense. -/
  level : Bool := false
  /-- Disk format. -/
  format : Format := .d64
  /-- Image bytes of `SYS.MOUNT`. -/
  cells : List Host.Cell := []
  /-- Image length of `SYS.MOUNT`. -/
  len : Nat := 0
  /-- Byte sequence operand of the `GCR.*` functions; a byte that is not there reads `0x00`. -/
  data : List Byte := []
  /-- Offset table operand of `DSK.OFFSET`. -/
  table : List Nat := []
  /-- Track operand of `DSK.OFFSET`. -/
  track : Nat := 0
  /-- Sector operand of `DSK.OFFSET`. -/
  sector : Nat := 0
deriving DecidableEq, Repr

end Sys2Proof
end

