-- ==== Sys2Proof/Config.lean ====
section
/-! DEFINITION. The parameters of R6 as plain data, and the free values the spec leaves open
(`draw`, R10; `VIA_CTRL_DECODE`, R224) as opaque constants. The default values stand in
`Sys2Proof/Machine/Defaults.lean`. -/

namespace Sys2Proof

/-- A run of consecutive tracks with one sector count (R12 "zone", R104). -/
structure Zone where
  tracks : Nat
  sectors : Nat
deriving DecidableEq, Repr

/-- One row of the parameter `FORMATS` (R6, R104, R105). -/
structure FormatInfo where
  zones : List Zone
  idOffset : Nat
deriving DecidableEq, Repr

/-- The parameter `FORMATS` (R6). -/
structure Formats where
  d64 : FormatInfo
  d64x40 : FormatInfo
  d71 : FormatInfo
  d81 : FormatInfo
  d80 : FormatInfo
  d82 : FormatInfo
deriving DecidableEq, Repr

/-- The row of one format. -/
def Formats.get (t : Formats) : Format → FormatInfo
  | .d64 => t.d64
  | .d64x40 => t.d64x40
  | .d71 => t.d71
  | .d81 => t.d81
  | .d80 => t.d80
  | .d82 => t.d82

/-- The four control/timer bytes of a VIA-style chip (R22, R42). -/
structure ViaCt where
  c0 : Byte
  c1 : Byte
  c2 : Byte
  c3 : Byte
deriving DecidableEq, Repr

/-- What `VIA_CTRL_DECODE` answers (R224). -/
structure ViaCtrl where
  ca1Enable : Bool
  ca1Rising : Bool
deriving DecidableEq, Repr

/-- `PINMAP_VIAB`: bit positions in port B of the bus chip (R103, R212). -/
structure PinmapViab where
  dataIn : Fin 8
  dataOut : Fin 8
  clkIn : Fin 8
  clkOut : Fin 8
  devselLo : Fin 8
  devselHi : Fin 8
  atnIn : Fin 8
deriving DecidableEq, Repr

/-- `PINMAP_VIAD`: bit positions in port B of the disk chip (R102, R213). -/
structure PinmapViad where
  stepLo : Fin 8
  stepHi : Fin 8
  mtr : Fin 8
  wps : Fin 8
  freqLo : Fin 8
  freqHi : Fin 8
  sync : Fin 8
deriving DecidableEq, Repr

/-- `PINMAP_TPI`: bit positions in port C of the TPI, OPEN in the spec (R243, D29). -/
structure PinmapTpi where
  dav : Fin 8
  sync : Fin 8
  devsel : Fin 8
  ack : Fin 8
deriving DecidableEq, Repr

/-- `VIA_OFFSETS`: where port B, port A, DDRB and DDRA stand in the 8-register window of a VIA-style
chip (R6, R61, D22). -/
structure ViaOffsets where
  pb : Fin 8
  pa : Fin 8
  ddrb : Fin 8
  ddra : Fin 8
deriving DecidableEq, Repr

/-- `TPI_CR_BITS`: the fields of the TPI configuration register (R6, R41). `CA` and `CB` are two
bits wide, each with the position of its high and of its low bit. -/
structure TpiCrBits where
  mc : Fin 8
  ip : Fin 8
  ie3 : Fin 8
  ie4 : Fin 8
  caHi : Fin 8
  caLo : Fin 8
  cbHi : Fin 8
  cbLo : Fin 8
deriving DecidableEq, Repr

/-- `ZONE_PERIOD[0..3]` (R6): durations, here in microseconds; labels only (R316). -/
structure ZonePeriods where
  z0 : Nat
  z1 : Nat
  z2 : Nat
  z3 : Nat
deriving DecidableEq, Repr

/-- The parameters of R6 that every operation of the machine shares. `N_DRIVES`, `N_PART`,
`variant[d]` and `dev_sel[d]` are read from the state's shape (entry 2). -/
structure Params where
  /-- `GCR_TABLE` (R96): entry `n` is the code of nibble `n`. -/
  gcrTable : List Code
  /-- `GAP_GROUP` (R101). -/
  gapGroup : List Byte
  /-- `FORMATS` (R104, R105). -/
  formats : Formats
  /-- `NOIMG_MAX_TRACK` (R31). -/
  noimgMaxTrack : Nat
  /-- `ZONE_PERIOD` (R48). -/
  zonePeriod : ZonePeriods
  /-- `IRQ_RETRY_PERIOD` (R6, R279), here in microseconds; `none` while it is "unspecified". A label
  only: "no rule depends on the value" (entry 15). -/
  irqRetryPeriod : Option Nat
  pinmapViab : PinmapViab
  pinmapViad : PinmapViad
  pinmapTpi : PinmapTpi
  /-- `VIA_OFFSETS` (R61). -/
  viaOffsets : ViaOffsets
  tpiCr : TpiCrBits
  /-- `BUS_INVERT` (R212). -/
  busInvert : Bool
  /-- `SYNC_ACTIVE_LOW` (R219). -/
  syncActiveLow : Bool
  /-- `WP_ACTIVE_LOW` (R219). -/
  wpActiveLow : Bool
  /-- `FLOAT_IN` (R211). -/
  floatIn : Byte
  /-- Values of `VIA_CTRL_DECODE` that are given (a test's `TESTDEC`); a control word that is not
  listed is decoded by the opaque constants below (entry 8). -/
  viaCtrl : List (ViaCt × ViaCtrl)
deriving DecidableEq, Repr

/-- FREE VALUE (R224, D23): whether a control word enables the control-input interrupt. -/
opaque Config.ca1Enable : ViaCt → Bool

/-- FREE VALUE (R224, D23): which edge of the control input a control word makes active. -/
opaque Config.ca1Rising : ViaCt → Bool

/-- FREE VALUE (R224, U1): `draw(8 bits)`, the byte a read of a control/timer register returns. -/
opaque Config.drawByte : Nat → Byte

/-- FREE VALUE (R248, U6): `draw(6 bits)`, bits 5:0 of port C of the TPI in interrupt mode. -/
opaque Config.drawSix : Nat → BitVec 6

end Sys2Proof
end

