-- ==== Sys2Proof/WellFormed.lean ====
section
/-! DEFINITION. Well-formed instructions (operands inside the ranges of R91 to R93, R7) and the
conditions the spec puts on the parameters (R6, R96, R101, R104). -/

namespace Sys2Proof

/-- "up to two drives" (R6): a drive number is 0 or 1. -/
def driveOk (d : Nat) : Bool := decide (d < 2)

/-- A participant number is 0 (host), 1 or 2 (R160). -/
def participantOk (p : Nat) : Bool := decide (p < 3)

/-- The operands of an instruction lie in the ranges the spec gives them. Whether the drive, the
participant or the chip exists in this machine is checked when the operation is performed. -/
def Instr.wf : Instr → Bool
  | .viabRdPb d => driveOk d
  | .viabRdPa d => driveOk d
  | .viabWrPb d _ => driveOk d
  | .viabWrPa d _ => driveOk d
  | .viadRdPb d => driveOk d
  | .viadRdPa d => driveOk d
  | .viadWrPb d _ => driveOk d
  | .viadWrPa d _ => driveOk d
  | .viaRdDdrb d _ => driveOk d
  | .viaRdDdra d _ => driveOk d
  | .viaWrDdrb d _ _ => driveOk d
  | .viaWrDdra d _ _ => driveOk d
  | .viaRdCt d _ _ => driveOk d
  | .viaWrCt d _ _ _ => driveOk d
  | .tpiRdPa d => driveOk d
  | .tpiRdPb d => driveOk d
  | .tpiRdPc d => driveOk d
  | .tpiRdDdra d => driveOk d
  | .tpiRdDdrb d => driveOk d
  | .tpiRdDdrc d => driveOk d
  | .tpiRdCr d => driveOk d
  | .tpiRdAir d => driveOk d
  | .tpiWrPa d _ => driveOk d
  | .tpiWrPb d _ => driveOk d
  | .tpiWrPc d _ => driveOk d
  | .tpiWrDdra d _ => driveOk d
  | .tpiWrDdrb d _ => driveOk d
  | .tpiWrDdrc d _ => driveOk d
  | .tpiWrCr d _ => driveOk d
  | .tpiWrAir d _ => driveOk d
  | .sysReset => true
  | .sysPwron d => driveOk d
  | .sysPwroff d => driveOk d
  | .sysMount d _ _ _ _ => driveOk d
  | .sysUnmount d => driveOk d
  | .mechTick d => driveOk d
  | .mechCtrl d _ => driveOk d
  | .irqRetry => true
  | .busSet p _ _ => participantOk p
  | .busGet _ => true
  | .parEnable _ => true
  | .parWrdata _ => true
  | .parRddata => true
  | .parWrack _ => true
  | .parRdack => true
  | .tpiIrqin d _ _ => driveOk d
  | .tpiHostwr d _ => driveOk d
  | .tpiHostrd d => driveOk d
  | .viaOtherirq d _ _ => driveOk d
  | .gcrEnc4 _ _ _ _ => true
  | .gcrDec5 g => g.length == 5
  | .gcrEncsec _ _ _ _ data => data.length == 256
  | .gcrDechdr g => g.length == 10
  | .gcrDecdata g => g.length == 325
  | .dskBuild _ => true
  | .dskOffset _ _ _ => true
  | .mechRegen d => driveOk d
  | .mechStep d _ => driveOk d
  | .busNotify q _ _ => participantOk q
  | .irqUpdate d => driveOk d

/-- A row of `FORMATS` has at least one track and at least one sector on every track (R142 rests
on "every spt(t) >= 1"). -/
def FormatInfo.wf (f : FormatInfo) : Bool :=
  f.zones.any (fun z => decide (0 < z.tracks)) && f.zones.all (fun z => decide (0 < z.sectors))

/-- The window offset `n` holds one of the four named registers. -/
def ViaOffsets.named (o : ViaOffsets) (n : Fin 8) : Bool := [o.pb, o.pa, o.ddrb, o.ddra].contains n

/-- Four registers stand at four different offsets (R61). -/
def ViaOffsets.wf (o : ViaOffsets) : Bool := decide [o.pb, o.pa, o.ddrb, o.ddra].Nodup

/-- What R6, R61, R96, R101 and R104 require of the parameters: a table of 16 distinct codes, a gap
group of 5 bytes without `0xFF`, formats with tracks and sectors, a positive retry period where one
is given, register offsets that do not overlap, a no-image clamp of at least track 1. -/
def Params.wf (P : Params) : Bool :=
  P.gcrTable.length == 16 && decide P.gcrTable.Nodup
    && P.gapGroup.length == 5 && !P.gapGroup.contains 0xFF
    && P.formats.d64.wf && P.formats.d64x40.wf && P.formats.d71.wf
    && P.formats.d81.wf && P.formats.d80.wf && P.formats.d82.wf
    && P.irqRetryPeriod.all (fun n => decide (0 < n)) && P.viaOffsets.wf
    && decide (1 ≤ P.noimgMaxTrack)

end Sys2Proof
end

