-- ==== Sys2Proof/Decode.lean ====
section
/-! DEFINITION. Decoding a request into an operation, by the tag formats of R90 to R94, and the
encoder written from the same tables. Decoding is total and refuses by name. -/

namespace Sys2Proof

/-- Why a request names no operation. -/
inductive DecodeError where
  /-- A reserved tag (R94). -/
  | reservedTag (tag : Byte)
  /-- An operand outside the range its row gives it. -/
  | badOperand (tag : Byte)
deriving DecidableEq, Repr

/-- R107: `ATN = 0`, `CLOCK = 1`, `DATA = 2`. -/
def lineOfNumber : Nat → Option Line
  | 0 => some .atn
  | 1 => some .clock
  | 2 => some .data
  | _ => none

/-- R107, the other way. -/
def numberOfLine : Line → Nat
  | .atn => 0
  | .clock => 1
  | .data => 2

/-- The TPI interrupt input of number `n`, `0 .. 4` (R256). -/
def irqInputOfNumber (n : Nat) : Option (Fin 5) :=
  if h : n < 5 then some ⟨n, h⟩ else none

/-- The first `n` bytes of an operand; a byte that is not there reads `0x00` (entry 1). -/
def takeBytes (n : Nat) (l : List Byte) : List Byte :=
  (l ++ List.replicate n (0 : Byte)).take n

/-- Byte `n` of an operand; `0x00` where there is none (entry 1). -/
def byteAt (l : List Byte) (n : Nat) : Byte := l.getD n 0

/-! ### The register windows (R60 to R62) -/

/-- The registers of the window of a VIA-style chip (R61). -/
inductive ViaReg where
  | pb
  | pa
  | ddrb
  | ddra
  | ct (k : Fin 4)
deriving DecidableEq, Repr

/-- The default `VIA_OFFSETS` (R6, R61): port B, port A, DDRB, DDRA at 0, 1, 2, 3. The tags of R91
assume it. -/
def defaultViaOffsets : ViaOffsets := ⟨0, 1, 2, 3⟩

/-- The offsets that `VIA_OFFSETS` leaves to the control/timer registers, in ascending order. -/
def ViaOffsets.rest (o : ViaOffsets) : List (Fin 8) := [0, 1, 2, 3, 4, 5, 6, 7].filter fun n => !o.named n

/-- The register at a window offset of a VIA-style chip (R61), the offset taken modulo 8 (R62).
DESIGN CHOICE (entry 21): with offsets other than the default, `CT0` to `CT3` fill the offsets that
are left, in ascending order. -/
def viaRegAt (o : ViaOffsets) (off : Nat) : ViaReg :=
  let n : Fin 8 := Fin.ofNat 8 off
  if n = o.pb then .pb
  else if n = o.pa then .pa
  else if n = o.ddrb then .ddrb
  else if n = o.ddra then .ddra
  else .ct (Fin.ofNat 4 (o.rest.idxOf n))

/-- The chip a VIA-style chip is among all chips of a drive. -/
def ViaId.chip : ViaId → ChipId
  | .viab => .viab
  | .viad => .viad

/-- The operation that reads a register of a VIA-style chip. -/
def viaRead (d : Nat) : ViaId → ViaReg → Instr
  | .viab, .pb => .viabRdPb d
  | .viab, .pa => .viabRdPa d
  | .viad, .pb => .viadRdPb d
  | .viad, .pa => .viadRdPa d
  | c, .ddrb => .viaRdDdrb d c
  | c, .ddra => .viaRdDdra d c
  | c, .ct k => .viaRdCt d c k

/-- The operation that writes a register of a VIA-style chip. -/
def viaWrite (d : Nat) (v : Byte) : ViaId → ViaReg → Instr
  | .viab, .pb => .viabWrPb d v
  | .viab, .pa => .viabWrPa d v
  | .viad, .pb => .viadWrPb d v
  | .viad, .pa => .viadWrPa d v
  | c, .ddrb => .viaWrDdrb d c v
  | c, .ddra => .viaWrDdra d c v
  | c, .ct k => .viaWrCt d c k v

/-- The operation that reads a window offset of the TPI (R61). -/
def tpiRead (d off : Nat) : Instr :=
  match off % 8 with
  | 0 => .tpiRdPa d
  | 1 => .tpiRdPb d
  | 2 => .tpiRdPc d
  | 3 => .tpiRdDdra d
  | 4 => .tpiRdDdrb d
  | 5 => .tpiRdDdrc d
  | 6 => .tpiRdCr d
  | _ => .tpiRdAir d

/-- The operation that writes a window offset of the TPI (R61). -/
def tpiWrite (d off : Nat) (v : Byte) : Instr :=
  match off % 8 with
  | 0 => .tpiWrPa d v
  | 1 => .tpiWrPb d v
  | 2 => .tpiWrPc d v
  | 3 => .tpiWrDdra d v
  | 4 => .tpiWrDdrb d v
  | 5 => .tpiWrDdrc d v
  | 6 => .tpiWrCr d v
  | _ => .tpiWrAir d v

/-- `RegRead(chip, off)` (R62) under `VIA_OFFSETS = o`: the operation that reads the register at
that window offset. -/
def regRead (o : ViaOffsets) (d : Nat) (chip : ChipId) (off : Nat) : Instr :=
  match chip with
  | .viab => viaRead d .viab (viaRegAt o off)
  | .viad => viaRead d .viad (viaRegAt o off)
  | .tpi => tpiRead d off

/-- `RegWrite(chip, off, v)` (R62) under `VIA_OFFSETS = o`. -/
def regWrite (o : ViaOffsets) (d : Nat) (chip : ChipId) (off : Nat) (v : Byte) : Instr :=
  match chip with
  | .viab => viaWrite d v .viab (viaRegAt o off)
  | .viad => viaWrite d v .viad (viaRegAt o off)
  | .tpi => tpiWrite d off v

/-- R91: the chip a REG tag selects by its bits `cc`; `11` is reserved. -/
def chipOfBits : Nat → Option ChipId
  | 0 => some .viab
  | 1 => some .viad
  | 2 => some .tpi
  | _ => none

/-- Format REG (R91), `0 0 c c w a a a`: "The tags below assume the default `VIA_OFFSETS`". -/
def decodeReg (r : Request) : Option Instr :=
  (chipOfBits (r.tag.extractLsb' 4 2).toNat).map fun chip =>
    if r.tag.getLsbD 3 then regWrite defaultViaOffsets r.drive chip (r.tag.extractLsb' 0 3).toNat r.byte
    else regRead defaultViaOffsets r.drive chip (r.tag.extractLsb' 0 3).toNat

/-- Format EVT (R92), `1 0 e e e e e e`: the operation of number `e`, if there is one and its line
or input operand exists. -/
def decodeEvt (r : Request) : Option (Option Instr) :=
  match (r.tag.extractLsb' 0 6).toNat with
  | 0x00 => some (some .sysReset)
  | 0x01 => some (some (.sysPwron r.drive))
  | 0x02 => some (some (.sysPwroff r.drive))
  | 0x03 => some (some (.sysMount r.drive r.format r.cells r.len r.level))
  | 0x04 => some (some (.sysUnmount r.drive))
  | 0x05 => some (some (.mechTick r.drive))
  | 0x06 => some (some (.mechCtrl r.drive r.byte))
  | 0x07 => some (some .irqRetry)
  | 0x08 => some ((lineOfNumber r.line).map fun l => .busSet r.participant l r.level)
  | 0x09 => some ((lineOfNumber r.line).map fun l => .busGet l)
  | 0x0A => some (some (.parEnable r.level))
  | 0x0B => some (some (.parWrdata r.byte))
  | 0x0C => some (some .parRddata)
  | 0x0D => some (some (.parWrack r.level))
  | 0x0E => some (some .parRdack)
  | 0x0F => some ((irqInputOfNumber r.input).map fun n => .tpiIrqin r.drive n r.level)
  | 0x10 => some (some (.tpiHostwr r.drive r.level))
  | 0x11 => some (some (.tpiHostrd r.drive))
  | 0x12 => some (some (.viaOtherirq r.drive r.chip r.level))
  | _ => none

/-- Format FUN (R93), `1 1 f f f f f f`. -/
def decodeFun (r : Request) : Option (Option Instr) :=
  match (r.tag.extractLsb' 0 6).toNat with
  | 0x00 => some (some (.gcrEnc4 (byteAt r.data 0) (byteAt r.data 1) (byteAt r.data 2) (byteAt r.data 3)))
  | 0x01 => some (some (.gcrDec5 (takeBytes 5 r.data)))
  | 0x02 => some (some (.gcrEncsec (byteAt r.data 0) (byteAt r.data 1) (byteAt r.data 2)
      (byteAt r.data 3) (takeBytes 256 (r.data.drop 4))))
  | 0x03 => some (some (.gcrDechdr (takeBytes 10 r.data)))
  | 0x04 => some (some (.gcrDecdata (takeBytes 325 r.data)))
  | 0x05 => some (some (.dskBuild r.format))
  | 0x06 => some (some (.dskOffset r.table r.track r.sector))
  | 0x07 => some (some (.mechRegen r.drive))
  | 0x08 => some (some (.mechStep r.drive (r.byte.extractLsb' 0 2)))
  | 0x09 => some ((lineOfNumber r.line).map fun l => .busNotify r.participant l r.level)
  | 0x0A => some (some (.irqUpdate r.drive))
  | _ => none

/-- The operation a request names, before its ranges are checked: none for a reserved tag (R94),
`some none` for a line or input number that does not exist. -/
def decodeTag (r : Request) : Option (Option Instr) :=
  match (r.tag.extractLsb' 6 2).toNat with
  | 0 => (decodeReg r).map some
  | 2 => decodeEvt r
  | 3 => decodeFun r
  | _ => none

/-- The operation a request names (R90 to R94), or the name of what is wrong with it. -/
def decode (r : Request) : Except DecodeError Instr :=
  match decodeTag r with
  | none => .error (.reservedTag r.tag)
  | some none => .error (.badOperand r.tag)
  | some (some i) => if i.wf then .ok i else .error (.badOperand r.tag)

/-! ### The encoder -/

/-- R91: the bits `cc` of a VIA-style chip, in place (bits 5:4). -/
def viaBits : ViaId → Byte
  | .viab => 0x00
  | .viad => 0x10

/-- R91: the bits `kk` of a control/timer register index. -/
def ctBits (k : Fin 4) : Byte := BitVec.ofNat 8 k.val

/-- The request that names an operation: its tag (R91 to R93) and its operands beside it. -/
def encode : Instr → Request
  | .viabRdPb d => { tag := 0x00, drive := d }
  | .viabRdPa d => { tag := 0x01, drive := d }
  | .viabWrPb d v => { tag := 0x08, drive := d, byte := v }
  | .viabWrPa d v => { tag := 0x09, drive := d, byte := v }
  | .viadRdPb d => { tag := 0x10, drive := d }
  | .viadRdPa d => { tag := 0x11, drive := d }
  | .viadWrPb d v => { tag := 0x18, drive := d, byte := v }
  | .viadWrPa d v => { tag := 0x19, drive := d, byte := v }
  | .viaRdDdrb d c => { tag := 0x02 ||| viaBits c, drive := d }
  | .viaRdDdra d c => { tag := 0x03 ||| viaBits c, drive := d }
  | .viaWrDdrb d c v => { tag := 0x0A ||| viaBits c, drive := d, byte := v }
  | .viaWrDdra d c v => { tag := 0x0B ||| viaBits c, drive := d, byte := v }
  | .viaRdCt d c k => { tag := 0x04 ||| viaBits c ||| ctBits k, drive := d }
  | .viaWrCt d c k v => { tag := 0x0C ||| viaBits c ||| ctBits k, drive := d, byte := v }
  | .tpiRdPa d => { tag := 0x20, drive := d }
  | .tpiRdPb d => { tag := 0x21, drive := d }
  | .tpiRdPc d => { tag := 0x22, drive := d }
  | .tpiRdDdra d => { tag := 0x23, drive := d }
  | .tpiRdDdrb d => { tag := 0x24, drive := d }
  | .tpiRdDdrc d => { tag := 0x25, drive := d }
  | .tpiRdCr d => { tag := 0x26, drive := d }
  | .tpiRdAir d => { tag := 0x27, drive := d }
  | .tpiWrPa d v => { tag := 0x28, drive := d, byte := v }
  | .tpiWrPb d v => { tag := 0x29, drive := d, byte := v }
  | .tpiWrPc d v => { tag := 0x2A, drive := d, byte := v }
  | .tpiWrDdra d v => { tag := 0x2B, drive := d, byte := v }
  | .tpiWrDdrb d v => { tag := 0x2C, drive := d, byte := v }
  | .tpiWrDdrc d v => { tag := 0x2D, drive := d, byte := v }
  | .tpiWrCr d v => { tag := 0x2E, drive := d, byte := v }
  | .tpiWrAir d v => { tag := 0x2F, drive := d, byte := v }
  | .sysReset => { tag := 0x80 }
  | .sysPwron d => { tag := 0x81, drive := d }
  | .sysPwroff d => { tag := 0x82, drive := d }
  | .sysMount d f bytes len wp =>
      { tag := 0x83, drive := d, format := f, cells := bytes, len := len, level := wp }
  | .sysUnmount d => { tag := 0x84, drive := d }
  | .mechTick d => { tag := 0x85, drive := d }
  | .mechCtrl d c => { tag := 0x86, drive := d, byte := c }
  | .irqRetry => { tag := 0x87 }
  | .busSet p l v => { tag := 0x88, participant := p, line := numberOfLine l, level := v }
  | .busGet l => { tag := 0x89, line := numberOfLine l }
  | .parEnable v => { tag := 0x8A, level := v }
  | .parWrdata v => { tag := 0x8B, byte := v }
  | .parRddata => { tag := 0x8C }
  | .parWrack v => { tag := 0x8D, level := v }
  | .parRdack => { tag := 0x8E }
  | .tpiIrqin d n level => { tag := 0x8F, drive := d, input := n.val, level := level }
  | .tpiHostwr d v => { tag := 0x90, drive := d, level := v }
  | .tpiHostrd d => { tag := 0x91, drive := d }
  | .viaOtherirq d c level => { tag := 0x92, drive := d, chip := c, level := level }
  | .gcrEnc4 a b c e => { tag := 0xC0, data := [a, b, c, e] }
  | .gcrDec5 g => { tag := 0xC1, data := g }
  | .gcrEncsec t s i1 i2 data => { tag := 0xC2, data := t :: s :: i1 :: i2 :: data }
  | .gcrDechdr g => { tag := 0xC3, data := g }
  | .gcrDecdata g => { tag := 0xC4, data := g }
  | .dskBuild f => { tag := 0xC5, format := f }
  | .dskOffset table t s => { tag := 0xC6, table := table, track := t, sector := s }
  | .mechRegen d => { tag := 0xC7, drive := d }
  | .mechStep d new => { tag := 0xC8, drive := d, byte := new.setWidth 8 }
  | .busNotify q l v => { tag := 0xC9, participant := q, line := numberOfLine l, level := v }
  | .irqUpdate d => { tag := 0xCA, drive := d }

/-! ### One word of the opcode table -/

/-- The request whose tag is the low byte of `w` and whose operands are all zero: the table gives
every row one byte and no operand bits (R90, R95). -/
def requestOfWord (_nbits w : Nat) : Request := { tag := BitVec.ofNat 8 w }

/-- The instruction the decoder reads from a table word. -/
def decodeTableWord (nbits w : Nat) : Option Instr :=
  match decode (requestOfWord nbits w) with
  | .ok i => some i
  | .error _ => none

end Sys2Proof
end

