-- ==== Sys2Proof/Machine/Defaults.lean ====
section
/-! DEFINITION. The default values of the parameters of R6. Every one is the spec's own default;
those the spec marks "from general knowledge" are listed in entry 12, the open `PINMAP_TPI` in
entry 13, the undecoded `VIA_CTRL_DECODE` in entry 8, the unspecified `IRQ_RETRY_PERIOD` in
entry 15. -/

namespace Sys2Proof.Machine

/-- The default `GCR_TABLE` (R96). -/
def defaultGcrTable : List Code :=
  [0x0A, 0x0B, 0x12, 0x13, 0x0E, 0x0F, 0x16, 0x17, 0x09, 0x19, 0x1A, 0x1B, 0x0D, 0x1D, 0x1E, 0x15]

/-- The zones of `d64` (R104): tracks 1..17, 18..24, 25..30, 31..35. -/
def zonesD64 : List Zone := [⟨17, 21⟩, ⟨7, 19⟩, ⟨6, 18⟩, ⟨5, 17⟩]

/-- The zones of `d64_40t` (R104): as `d64`, and 17 sectors for tracks 36..40. -/
def zonesD64x40 : List Zone := [⟨17, 21⟩, ⟨7, 19⟩, ⟨6, 18⟩, ⟨10, 17⟩]

/-- The zones of `d80` (R104): tracks 1..39, 40..53, 54..64, 65..77. -/
def zonesD80 : List Zone := [⟨39, 29⟩, ⟨14, 27⟩, ⟨11, 25⟩, ⟨13, 23⟩]

/-- The default `FORMATS` (R104, R105). -/
def defaultFormats : Formats where
  d64 := ⟨zonesD64, 0x165A2⟩
  d64x40 := ⟨zonesD64x40, 0x165A2⟩
  d71 := ⟨zonesD64 ++ zonesD64, 0x165A2⟩
  d81 := ⟨[⟨80, 40⟩], 0x61816⟩
  d80 := ⟨zonesD80, 0x44E18⟩
  d82 := ⟨zonesD80 ++ zonesD80, 0x44E18⟩

/-- The default `PINMAP_VIAB` (R103). -/
def defaultPinmapViab : PinmapViab where
  dataIn := 0
  dataOut := 1
  clkIn := 2
  clkOut := 3
  devselLo := 5
  devselHi := 6
  atnIn := 7

/-- The default `PINMAP_VIAD` (R102). -/
def defaultPinmapViad : PinmapViad where
  stepLo := 0
  stepHi := 1
  mtr := 2
  wps := 4
  freqLo := 5
  freqHi := 6
  sync := 7

/-- The suggested `PINMAP_TPI` (R243). DESIGN CHOICE: the spec leaves it OPEN (entry 13). -/
def suggestedPinmapTpi : PinmapTpi where
  dav := 7
  sync := 6
  devsel := 5
  ack := 3

/-- The default `TPI_CR_BITS` (R41). -/
def defaultTpiCr : TpiCrBits where
  mc := 0
  ip := 1
  ie3 := 2
  ie4 := 3
  caHi := 5
  caLo := 4
  cbHi := 7
  cbLo := 6

/-- The default `ZONE_PERIOD` (R6): 32, 30, 28, 26 microseconds for zone 0, 1, 2, 3. -/
def defaultZonePeriod : ZonePeriods := ⟨32, 30, 28, 26⟩

/-- The defaults of R6. -/
def defaultParams : Params where
  gcrTable := defaultGcrTable
  gapGroup := [0x52, 0x94, 0xA5, 0x29, 0x4A]
  formats := defaultFormats
  noimgMaxTrack := 35
  zonePeriod := defaultZonePeriod
  irqRetryPeriod := none
  pinmapViab := defaultPinmapViab
  pinmapViad := defaultPinmapViad
  pinmapTpi := suggestedPinmapTpi
  viaOffsets := defaultViaOffsets
  tpiCr := defaultTpiCr
  busInvert := true
  syncActiveLow := true
  wpActiveLow := true
  floatIn := 0xFF
  viaCtrl := []

end Sys2Proof.Machine
end

