-- ==== Sys2Proof/Machine/State.lean ====
section
/-! DEFINITION. The state of the block (R20 to R52), the reasons a step can be absent, and the
state right after reset (R53, R306). -/

namespace Sys2Proof.Machine

/-- A byte memory: (address, byte) pairs, addresses strictly rising, no pair holding `0x00`. An
address that is not listed reads `0x00` (R64: "treat missing bytes as zero-filled"). -/
abbrev Memory := List Host.Cell

/-- One Bool per bus line: a participant's latches (R21) or the observed lines (R51). `true` is
released, `false` is pulled low (R9). -/
structure Lines where
  atn : Bool
  clock : Bool
  data : Bool
deriving DecidableEq, Repr

/-- The serial bus: the latches of each participant (R21) and the stored line values (R51). -/
structure Bus where
  latches : List Lines
  line : Lines
deriving DecidableEq, Repr

/-- The fast/parallel handshake pair (R25). -/
structure Par where
  enable : Bool
  ack : Bool
  data : Byte
deriving DecidableEq, Repr

/-- A VIA-style chip (R22, R38, R42, R45, R50, R52). -/
structure ViaChip where
  ora : Byte
  orb : Byte
  ddra : Byte
  ddrb : Byte
  ct : ViaCt
  ca1Flag : Bool
  otherIrq : Bool
  chipIrq : Bool
  irqRetry : Bool
deriving DecidableEq, Repr

/-- A TPI6525 with its handshake pair and interrupt levels (R23, R26, R27, R34, R41, R45, R50). -/
structure TpiChip where
  pra : Byte
  prb : Byte
  prc : Byte
  ddra : Byte
  ddrb : Byte
  ddrc : Byte
  cr : Byte
  air : Byte
  irqLevel : Vector Bool 5
  hsDav : Bool
  hsAck : Bool
  chipIrq : Bool
  irqRetry : Bool
deriving DecidableEq, Repr

/-- The controller of a drive. The constructor IS the drive's variant (R3); a drive has no register
of a chip its variant lacks (R24). -/
inductive Controller where
  | via (b d : ViaChip)
  | tpi (t : TpiChip)
deriving DecidableEq, Repr

/-- A mounted image (R28, R63). -/
structure Image where
  format : Format
  bytes : Memory
  len : Nat
  table : List Nat
  maxTrack : Nat
  id1 : Byte
  id2 : Byte
deriving DecidableEq, Repr

/-- The drive mechanism (R31 to R33, R35, R37, R43, R44, R47, R48). -/
structure Mech where
  ht : Nat
  sector : Nat
  pos : Nat
  ffcount : Nat
  sync : Bool
  motor : Bool
  zone : Bits2
  phase : Bits2
  timerArmed : Bool
  timerPeriod : Nat
deriving DecidableEq, Repr

/-- One drive. `devSel` is the parameter `dev_sel[d]` (R6), written by no operation. -/
structure Drive where
  devSel : Bits2
  powered : Bool
  wp : Bool
  img : Option Image
  buf : List Byte
  mech : Mech
  ctl : Controller
  cpuIrq : Bool
deriving DecidableEq, Repr

/-- The fields of a decoded header block (R137). -/
structure Header where
  mark : Byte
  chk : Byte
  sector : Byte
  track : Byte
  id1 : Byte
  id2 : Byte
  pad1 : Byte
  pad2 : Byte
deriving DecidableEq, Repr

/-- What an operation returns to the agent that performed it. DESIGN CHOICE: kept as a field of the
state, so that it can be stated and compared (entry 5). -/
inductive Result where
  /-- An operation that returns nothing. -/
  | none
  /-- A register read (R62), `PAR.RDDATA`. -/
  | byte (v : Byte)
  /-- `BUS.GET`, `PAR.RDACK`, `TPI.HOSTRD`. -/
  | bit (v : Bool)
  /-- `GCR.ENC4`, `GCR.ENCSEC`, and the four bytes of `GCR.DEC5`. -/
  | bytes (l : List Byte)
  /-- The value `invalid` of the decoders (R132, R137, R138). -/
  | invalid
  /-- `GCR.DECHDR`: the eight fields and `header_ok`. -/
  | header (h : Header) (ok : Bool)
  /-- `GCR.DECDATA`: the 256 data bytes, `xsum` and `data_ok`. -/
  | data (data : List Byte) (xsum : Byte) (ok : Bool)
  /-- `DSK.BUILD`. -/
  | table (t : List Nat)
  /-- `DSK.OFFSET`. -/
  | address (a : Nat)
deriving DecidableEq, Repr

/-- The output events of the block (R10 `emit`). -/
inductive Event where
  /-- One byte-ready pulse of drive `d` (R195). -/
  | readyPulse (d : Nat)
  /-- The CPU interrupt input of drive `d` changed to `level` (R277). -/
  | cpuIrq (d : Nat) (level : Bool)
  /-- Participant `q` was notified that line `l` changed to `v` (R165). -/
  | busEdge (q : Nat) (l : Line) (v : Bool)
  /-- A waiting request of chip `c` of drive `d` was delivered (R279). -/
  | irqDelivered (d : Nat) (c : ChipId)
deriving DecidableEq, Repr

/-- The state of the block. Fields named by R20 to R52: `bus`, `par`, `drives`, `retryArmed`.
Parameters (R6): `params`. The model's own: `requests`, `result`, `events`, `draws`. -/
structure State where
  params : Params
  bus : Bus
  par : Par
  drives : List Drive
  retryArmed : Bool
  /-- The operations presented and not yet performed, the next one first (entry 1). -/
  requests : List Request
  /-- What the last operation returned (entry 5). -/
  result : Result
  /-- The output events, newest first (entry 6). -/
  events : List Event
  /-- How many `draw` values have been taken (entry 7). -/
  draws : Nat
deriving DecidableEq, Repr

/-- The block has no fault state: "A model's step function has no fault outcome" (R270). The type
has no constructor; nothing raises a fault (safe: a step is refused or taken). -/
inductive Fault where
deriving DecidableEq, Repr

/-- Why there is no step. Each is a false enabling condition (R10), a tag that names no operation
(R94), or a coordinate outside the domain of `offset` (R141). All are safe: nothing is claimed of
a step the hardware does not have. -/
inductive Refusal where
  /-- Raised by `exec` for an instruction without a meaning; no arm answers it. Safe. -/
  | notModelled (mnemonic : String)
  /-- Raised by `step` when no agent has presented an operation (R8). Safe. -/
  | noOperation
  /-- Raised by `step` for a reserved tag (R94). Safe. -/
  | reservedTag (tag : Byte)
  /-- Raised by `step` for an operand outside its range (R91 to R93, R107). Safe. -/
  | badOperand (tag : Byte)
  /-- Raised by any operation on a drive number the machine does not have (R6 `N_DRIVES`). Safe. -/
  | noSuchDrive (d : Nat)
  /-- Raised by `BUS.SET` and `BUS.NOTIFY` for a participant the machine does not have (R6
  `N_PART`). Safe. -/
  | noSuchParticipant (p : Nat)
  /-- Raised by a chip operation on a drive whose variant lacks the chip (R94, R24). Safe. -/
  | noSuchChip (d : Nat)
  /-- Raised by an operation that needs `powered = 1` (R62, R186, R231, R292, R303, U15), and by
  `step` for any operation of the CPU of a drive that is off (R292). Safe. -/
  | drivePoweredOff (d : Nat)
  /-- Raised by `SYS.PWRON` on a powered drive (R302). Safe. -/
  | drivePoweredOn (d : Nat)
  /-- Raised by `SYS.MOUNT` on a drive that holds an image (R192). Safe. -/
  | imageMounted (d : Nat)
  /-- Raised by `MECH.TICK` with the rotation timer disarmed (R182). Safe. -/
  | timerDisarmed (d : Nat)
  /-- Raised by `IRQ.RETRY` with the retry timer disarmed (R279). Safe. -/
  | retryDisarmed
  /-- Raised by `DSK.OFFSET` for a track outside `1 .. max_track` (R141). Safe. -/
  | trackOutOfRange (track : Nat)
deriving DecidableEq, Repr

/-- All three lines released (R53). -/
def Lines.released : Lines := ⟨true, true, true⟩

/-- A VIA-style chip after reset (R22, R53). -/
def ViaChip.afterReset : ViaChip where
  ora := 0
  orb := 0
  ddra := 0
  ddrb := 0
  ct := ⟨0, 0, 0, 0⟩
  ca1Flag := false
  otherIrq := false
  chipIrq := false
  irqRetry := false

/-- A TPI after reset (R23, R26, R27, R53). -/
def TpiChip.afterReset : TpiChip where
  pra := 0
  prb := 0
  prc := 0
  ddra := 0
  ddrb := 0
  ddrc := 0
  cr := 0
  air := 0
  irqLevel := Vector.replicate 5 true
  hsDav := true
  hsAck := true
  chipIrq := false
  irqRetry := false

/-- The mechanism after reset (R53). `timerPeriod` is a DESIGN CHOICE (entry 3). -/
def Mech.afterReset : Mech where
  ht := 2
  sector := 0
  pos := 0
  ffcount := 0
  sync := false
  motor := false
  zone := 0
  phase := 0
  timerArmed := false
  timerPeriod := defaultZonePeriod.z0

/-- A VIA drive at construction (R306) with device-select jumpers `sel`. -/
def Drive.afterReset (sel : Bits2) : Drive where
  devSel := sel
  powered := true
  wp := false
  img := none
  buf := List.replicate 365 0
  mech := Mech.afterReset
  ctl := .via ViaChip.afterReset ViaChip.afterReset
  cpuIrq := false

/-- The machine right after reset, with the default parameters of R6 (two VIA drives,
`dev_sel[d] = d`): R53, and R306 for `powered`, `img`, `wp` and `buf`. -/
def State.reset : State where
  params := defaultParams
  bus := ⟨List.replicate 3 Lines.released, Lines.released⟩
  par := ⟨false, true, 0xFF⟩
  drives := [Drive.afterReset 0, Drive.afterReset 1]
  retryArmed := false
  requests := []
  result := .none
  events := []
  draws := 0

end Sys2Proof.Machine
end

