-- ==== Sys2Proof/Machine/Memory.lean ====
section
/-! DEFINITION. The image memory: reading one byte, writing one byte in canonical form, and the
buffer the frontend hands over (R63, R64, R192). -/

namespace Sys2Proof.Machine

/-- The byte at an address; `0x00` where nothing is listed (R64). -/
def Memory.read : Memory → Nat → Byte
  | [], _ => 0
  | (k, x) :: m, a => if k = a then x else Memory.read m a

/-- Store one byte, keeping the canonical form: writing `0x00` removes the entry. -/
def Memory.write : Memory → Nat → Byte → Memory
  | [], a, v => if v = 0 then [] else [(a, v)]
  | (k, x) :: m, a, v =>
    if a < k then (if v = 0 then (k, x) :: m else (a, v) :: (k, x) :: m)
    else if a = k then (if v = 0 then m else (a, v) :: m)
    else (k, x) :: Memory.write m a v

/-- The canonical form: addresses strictly rising, no entry holding what an unlisted address
reads as. -/
abbrev Memory.wf (m : Memory) : Prop :=
  m.Pairwise (fun x y => x.1 < y.1) ∧ ∀ x ∈ m, x.2 ≠ 0

/-- The backing buffer of length `len` (R192) as a memory: each pair inside the buffer is stored,
the last pair of an address standing. -/
def Memory.ofCells (cells : List Host.Cell) (len : Nat) : Memory :=
  cells.foldl (fun m c => if c.1 < len then Memory.write m c.1 c.2 else m) []

/-- R64, `MemRead(IMG(d), addr, 1)` of a mounted image. -/
def Image.read (im : Image) (addr : Nat) : Byte :=
  if addr < im.len then Memory.read im.bytes addr else 0

/-- R64, `MemRead(IMG(d), addr, 1)` of a drive: `0x00` with no image mounted. -/
def Drive.imgRead (dr : Drive) (addr : Nat) : Byte :=
  match dr.img with
  | none => 0
  | some im => im.read addr

end Sys2Proof.Machine
end

