-- ==== Sys2Proof/Machine/Operands.lean ====
section
/-! DEFINITION. Bit fields, the port read-back law, and what stands on the pins of every port
(R102, R103, R211 to R219, R243 to R248). -/

namespace Sys2Proof.Machine

/-- `hi4(v) = v[7:4]` (R9). -/
def hi4 (v : Byte) : Nibble := v.extractLsb' 4 4

/-- `lo4(v) = v[3:0]` (R9). -/
def lo4 (v : Byte) : Nibble := v.extractLsb' 0 4

/-- `v[i]` (R9). -/
def bitAt (v : Byte) (i : Fin 8) : Bool := v.getLsbD i.val

/-- `v` with bit `i` set to `b` (R9, `v[i] <- b`). -/
def withBit (v : Byte) (i : Fin 8) (b : Bool) : Byte :=
  if b then v ||| (1#8 <<< i.val) else v &&& ~~~(1#8 <<< i.val)

/-- The two-bit field whose bits stand at `hi` and `lo`. -/
def fieldAt (v : Byte) (hi lo : Fin 8) : Bits2 :=
  BitVec.ofBool (bitAt v hi) ++ BitVec.ofBool (bitAt v lo)

/-- The port read-back law (R211): `(pin_input & ~ddr) | (output_latch & ddr)`. -/
def readBack (pin latch ddr : Byte) : Byte := (pin &&& ~~~ddr) ||| (latch &&& ddr)

/-- The value of line `l` (R51). -/
def Lines.get (b : Lines) : Line → Bool
  | .atn => b.atn
  | .clock => b.clock
  | .data => b.data

/-- Set the value of line `l`. -/
def Lines.set (b : Lines) (l : Line) (v : Bool) : Lines :=
  match l with
  | .atn => { b with atn := v }
  | .clock => { b with clock := v }
  | .data => { b with data := v }

/-- `in(l)` (R212): how a line value stands on a port pin. -/
def portLevel (P : Params) (v : Bool) : Bool := if P.busInvert then !v else v

/-- R214: the pins of port B of the bus chip. -/
def viabPins (P : Params) (sel : Bits2) (line : Lines) : Byte :=
  let m := P.pinmapViab
  let p := withBit P.floatIn m.dataIn (portLevel P line.data)
  let p := withBit p m.clkIn (portLevel P line.clock)
  let p := withBit p m.atnIn (portLevel P line.atn)
  withBit (withBit p m.devselHi (sel.getLsbD 1)) m.devselLo (sel.getLsbD 0)

/-- R216, `out(bit)`: the line value the bus chip puts out on the line wired to a port B pin. -/
def viabOut (P : Params) (b : ViaChip) (pin : Fin 8) : Bool :=
  if !bitAt b.ddrb pin then true
  else if P.busInvert then !bitAt b.orb pin else bitAt b.orb pin

/-- R219: the pins of port B of the disk chip. -/
def viadPins (P : Params) (wp sync : Bool) : Byte :=
  let m := P.pinmapViad
  withBit (withBit P.floatIn m.wps (if P.wpActiveLow then !wp else wp))
    m.sync (if P.syncActiveLow then !sync else sync)

/-- R247: the pins of port C of the TPI in ordinary port mode. -/
def tpiPinsC (P : Params) (sel : Bits2) (hsDav sync : Bool) : Byte :=
  let m := P.pinmapTpi
  let p := withBit P.floatIn m.dav hsDav
  let p := withBit p m.sync (if P.syncActiveLow then !sync else sync)
  withBit p m.devsel (sel.getLsbD 0)

/-- Field `STEP` of the control byte (R102). -/
def ctrlStep (P : Params) (c : Byte) : Bits2 := fieldAt c P.pinmapViad.stepHi P.pinmapViad.stepLo

/-- Field `MTR` of the control byte (R102). -/
def ctrlMotor (P : Params) (c : Byte) : Bool := bitAt c P.pinmapViad.mtr

/-- Field `FREQ` of the control byte (R102). -/
def ctrlFreq (P : Params) (c : Byte) : Bits2 := fieldAt c P.pinmapViad.freqHi P.pinmapViad.freqLo

/-- The byte under the head: `drv[d].buf[drv[d].pos]` (R33, R213, R245). -/
def Drive.headByte (dr : Drive) : Byte := dr.buf.getD dr.mech.pos 0

/-- `ct[k]` (R22). -/
def ctGet (c : ViaCt) (k : Fin 4) : Byte :=
  match k with
  | 0 => c.c0
  | 1 => c.c1
  | 2 => c.c2
  | 3 => c.c3

/-- `ct[k] <- v` (R230). -/
def ctSet (c : ViaCt) (k : Fin 4) (v : Byte) : ViaCt :=
  match k with
  | 0 => { c with c0 := v }
  | 1 => { c with c1 := v }
  | 2 => { c with c2 := v }
  | 3 => { c with c3 := v }

/-- `ZONE_PERIOD[z]` (R6, R48). -/
def zonePeriodOf (P : Params) (z : Bits2) : Nat :=
  if z = 0 then P.zonePeriod.z0
  else if z = 1 then P.zonePeriod.z1
  else if z = 2 then P.zonePeriod.z2
  else P.zonePeriod.z3

end Sys2Proof.Machine
end

