-- ==== Sys2Proof/Machine/Flags.lean ====
section
/-! DEFINITION. Every flag computation of the block: the chip interrupt outputs (R275), active
edges (R221, R256), the source a priorized read reports (R258), the sync detector (R184). -/

namespace Sys2Proof.Machine

/-- The value of `VIA_CTRL_DECODE` where it is given, else the opaque constants (entry 8). -/
def ctrlGiven (P : Params) (ct : ViaCt) : ViaCtrl :=
  match P.viaCtrl.find? (fun e => decide (e.1 = ct)) with
  | some e => e.2
  | none => ⟨Config.ca1Enable ct, Config.ca1Rising ct⟩

/-- `VIA_CTRL_DECODE` (R224): a function of the four stored bytes alone, with `ca1_enable = 0` when
all four are 0; nothing else is assumed of it. -/
def ctrlDecode (P : Params) (ct : ViaCt) : ViaCtrl :=
  if ct = ⟨0, 0, 0, 0⟩ then { ctrlGiven P ct with ca1Enable := false } else ctrlGiven P ct

/-- `irq_fn(d, VIAB)` and `irq_fn(d, VIAD)` (R275). -/
def viaIrqFn (P : Params) (c : ViaChip) : Bool :=
  (c.ca1Flag && (ctrlDecode P c.ct).ca1Enable) || c.otherIrq

/-- `cr.MC` (R41). -/
def crMc (P : Params) (t : TpiChip) : Bool := bitAt t.cr P.tpiCr.mc

/-- `cr.IP` (R41). -/
def crIp (P : Params) (t : TpiChip) : Bool := bitAt t.cr P.tpiCr.ip

/-- `cr.CA` (R41): stored, without a function. -/
def crCa (P : Params) (t : TpiChip) : Bits2 := fieldAt t.cr P.tpiCr.caHi P.tpiCr.caLo

/-- `cr.CB` (R41): stored, without a function. -/
def crCb (P : Params) (t : TpiChip) : Bits2 := fieldAt t.cr P.tpiCr.cbHi P.tpiCr.cbLo

/-- `irq_fn(d, TPI)` (R275): interrupt mode, and some bit of `air[4:0]` set. -/
def tpiIrqFn (P : Params) (t : TpiChip) : Bool :=
  crMc P t && decide (t.air.extractLsb' 0 5 ≠ 0)

/-- R221: an edge of line ATN to `v` is active on the bus chip when the new pin level is the
selected one. -/
def atnEdgeActive (P : Params) (b : ViaChip) (v : Bool) : Bool :=
  portLevel P v == (ctrlDecode P b.ct).ca1Rising

/-- R256: a change of interrupt input `n` to `level` is an active edge: falling for 0, 1, 2; as
`cr.IE3`, `cr.IE4` select for 3, 4. -/
def tpiEdgeActive (P : Params) (t : TpiChip) (n : Fin 5) (level : Bool) : Bool :=
  match n with
  | 0 => !level
  | 1 => !level
  | 2 => !level
  | 3 => level == bitAt t.cr P.tpiCr.ie3
  | 4 => level == bitAt t.cr P.tpiCr.ie4

/-- R258: `1 << i` for the largest `i` in `0 .. 4` with `air[i] = 1`; `0x00` if there is none. -/
def highestPending (air : Byte) : Byte :=
  if air.getLsbD 4 then 0x10
  else if air.getLsbD 3 then 0x08
  else if air.getLsbD 2 then 0x04
  else if air.getLsbD 1 then 0x02
  else if air.getLsbD 0 then 0x01
  else 0x00

/-- R184: the count of consecutive `0xFF` bytes after byte `b`, saturating at 5. -/
def nextFf (n : Nat) (b : Byte) : Nat := if b = 0xFF then min (n + 1) 5 else 0

end Sys2Proof.Machine
end

