-- ==== Sys2Proof/Machine/Codec.lean ====
section
/-! DEFINITION. The pure functions of the GCR codec and of disk addressing (R96 to R101, R130 to
R144). -/

namespace Sys2Proof.Machine

/-! ### The group codec -/

/-- `GCR_TABLE[n]` (R96). -/
def codeOf (tbl : List Code) (n : Nibble) : Code := tbl.getD n.toNat 0

/-- "the unique n with GCR_TABLE[n] = g" (R132), none for a code that is not in the table (R98). -/
def nibbleOf (tbl : List Code) (g : Code) : Option Nibble :=
  (tbl.findIdx? (fun x => decide (x = g))).map (BitVec.ofNat 4)

/-- The 40-bit value `G` of R97, R131: the eight codes, high nibble first, first byte first. -/
def groupBits (tbl : List Code) (a b c e : Byte) : BitVec 40 :=
  codeOf tbl (hi4 a) ++ codeOf tbl (lo4 a) ++ codeOf tbl (hi4 b) ++ codeOf tbl (lo4 b) ++
    codeOf tbl (hi4 c) ++ codeOf tbl (lo4 c) ++ codeOf tbl (hi4 e) ++ codeOf tbl (lo4 e)

/-- `encode4to5` (R131): `out[k] = G[39-8k : 32-8k]`. -/
def encode4to5 (tbl : List Code) (a b c e : Byte) : List Byte :=
  let g := groupBits tbl a b c e
  [g.extractLsb' 32 8, g.extractLsb' 24 8, g.extractLsb' 16 8, g.extractLsb' 8 8, g.extractLsb' 0 8]

/-- `decode5to4` of five bytes (R132); `none` is `invalid`. -/
def decodeGroup (tbl : List Code) (x0 x1 x2 x3 x4 : Byte) : Option (Byte × Byte × Byte × Byte) :=
  let g : BitVec 40 := x0 ++ x1 ++ x2 ++ x3 ++ x4
  match nibbleOf tbl (g.extractLsb' 35 5), nibbleOf tbl (g.extractLsb' 30 5),
    nibbleOf tbl (g.extractLsb' 25 5), nibbleOf tbl (g.extractLsb' 20 5),
    nibbleOf tbl (g.extractLsb' 15 5), nibbleOf tbl (g.extractLsb' 10 5),
    nibbleOf tbl (g.extractLsb' 5 5), nibbleOf tbl (g.extractLsb' 0 5) with
  | some n0, some n1, some n2, some n3, some n4, some n5, some n6, some n7 =>
    some (n0 ++ n1, n2 ++ n3, n4 ++ n5, n6 ++ n7)
  | _, _, _, _, _, _, _, _ => none

/-- `decode5to4` (R132) of a byte sequence: `invalid` unless it is five bytes that decode. -/
def decode5to4 (tbl : List Code) : List Byte → Option (Byte × Byte × Byte × Byte)
  | [x0, x1, x2, x3, x4] => decodeGroup tbl x0 x1 x2 x3 x4
  | _ => none

/-- A byte sequence encoded four bytes at a time (R133). -/
def encodeGroups (tbl : List Code) : List Byte → List Byte
  | a :: b :: c :: e :: rest => encode4to5 tbl a b c e ++ encodeGroups tbl rest
  | _ => []

/-- A byte sequence decoded five bytes at a time (R138); `invalid` if any group is. -/
def decodeGroups (tbl : List Code) : List Byte → Option (List Byte)
  | [] => some []
  | x0 :: x1 :: x2 :: x3 :: x4 :: rest =>
    match decodeGroup tbl x0 x1 x2 x3 x4, decodeGroups tbl rest with
    | some (a, b, c, e), some l => some (a :: b :: c :: e :: l)
    | _, _ => none
  | _ => none

/-! ### Blocks and the sector buffer -/

/-- The XOR of all bytes (R99, R133). -/
def xorAll (l : List Byte) : Byte := l.foldl (fun x y => x ^^^ y) 0

/-- The header checksum (R99). -/
def headerChk (track sector id1 id2 : Byte) : Byte := sector ^^^ track ^^^ id1 ^^^ id2

/-- The header block (R99). -/
def headerBlock (track sector id1 id2 : Byte) : List Byte :=
  [0x08, headerChk track sector id1 id2, sector, track, id1, id2, 0x0F, 0x0F]

/-- The data block (R99). -/
def dataBlock (data : List Byte) : List Byte := (0x07 :: data) ++ [xorAll data, 0x00, 0x00]

/-- A sync run: five bytes `0xFF` (R7, R100). -/
def syncRun : List Byte := [0xFF, 0xFF, 0xFF, 0xFF, 0xFF]

/-- `encode_sector` (R133, R100). -/
def encodeSector (P : Params) (track sector id1 id2 : Byte) (data : List Byte) : List Byte :=
  syncRun ++ encodeGroups P.gcrTable (headerBlock track sector id1 id2)
    ++ (P.gapGroup ++ P.gapGroup)
    ++ syncRun ++ encodeGroups P.gcrTable (dataBlock data)
    ++ (P.gapGroup ++ P.gapGroup)

/-- `header_ok` (R137). -/
def Header.valid (h : Header) : Bool :=
  decide (h.mark = 0x08) && decide (h.chk = headerChk h.track h.sector h.id1 h.id2)

/-- `decode_header` (R137) of the ten bytes at buffer index 5 to 14; `none` is `invalid`. -/
def decodeHeader (tbl : List Code) (l : List Byte) : Option Header :=
  match decode5to4 tbl (l.take 5), decode5to4 tbl (l.drop 5) with
  | some (mark, chk, sector, track), some (id1, id2, pad1, pad2) =>
    some ⟨mark, chk, sector, track, id1, id2, pad1, pad2⟩
  | _, _ => none

/-- `decode_data` (R138) of the 325 bytes at buffer index 30 to 354: the data, `xsum` and
`data_ok`; `none` is `invalid`. -/
def decodeData (tbl : List Code) (l : List Byte) : Option (List Byte × Byte × Bool) :=
  match decodeGroups tbl l with
  | none => none
  | some blk =>
    let data := (blk.drop 1).take 256
    let xsum := blk.getD 257 0
    some (data, xsum, decide (blk.getD 0 0 = 0x07) && decide (xsum = xorAll data))

/-! ### Disk addressing -/

/-- The sector counts of a format, one per track, track 1 first (R104). -/
def FormatInfo.counts (f : FormatInfo) : List Nat :=
  f.zones.flatMap fun z => List.replicate z.tracks z.sectors

/-- `max_track` of a format (R104). -/
def maxTrackOf (P : Params) (f : Format) : Nat := (FormatInfo.counts (P.formats.get f)).length

/-- `spt(track)` of a format (R104), 1-based; 0 for a track the format does not have. -/
def sptOf (P : Params) (f : Format) (track : Nat) : Nat :=
  if track = 0 then 0 else (FormatInfo.counts (P.formats.get f)).getD (track - 1) 0

/-- The prefix sums of R139, `acc` first. -/
def prefixSums (acc : Nat) : List Nat → List Nat
  | [] => [acc]
  | n :: ns => acc :: prefixSums (acc + 256 * n) ns

/-- `build_offset_table` (R139): `table[0 .. max_track]`. -/
def buildTable (P : Params) (f : Format) : List Nat :=
  prefixSums 0 (FormatInfo.counts (P.formats.get f))

/-- `offset(track, sector)` (R140); none outside `1 <= track <= max_track` (R141). -/
def offset? (table : List Nat) (track sector : Nat) : Option Nat :=
  if 1 ≤ track ∧ track < table.length then some (table.getD (track - 1) 0 + sector * 256) else none

end Sys2Proof.Machine
end

