-- ==== Sys2Proof/Machine/Ops.lean ====
section
/-! DEFINITION. The shared operations over the state: the mechanism of one drive (R135, R180 to
R190), the interrupt outputs (R275 to R280), the bus (R161 to R166), the reset helpers (R301), and
who may perform an operation (R10, R62, R94). -/

namespace Sys2Proof.Machine

/-- The outcome of an operation. -/
abbrev Out := Host.Outcome State Fault Refusal

/-! ### The mechanism of one drive -/

/-- `cur_track(d) = floor(ht / 2)` (R31). -/
def Drive.curTrack (dr : Drive) : Nat := dr.mech.ht / 2

/-- `max_track(d)` (R31): the mounted format's, or `NOIMG_MAX_TRACK`. -/
def Drive.maxTrack (P : Params) (dr : Drive) : Nat :=
  match dr.img with
  | none => P.noimgMaxTrack
  | some im => im.maxTrack

/-- The 256 bytes of a sector, from byte address `base` of the image (R135). -/
def Image.sectorData (im : Image) (base : Nat) : List Byte :=
  (List.range 256).map fun i => im.read (base + i)

/-- `MECH.REGEN` (R135): encode the current sector into the buffer; nothing with no image (R136).
A coordinate outside `offset`'s domain, which the mechanism never produces (R141), leaves the
buffer alone (entry 10). -/
def Drive.regen (P : Params) (dr : Drive) : Drive :=
  match dr.img with
  | none => dr
  | some im =>
    match offset? im.table dr.curTrack dr.mech.sector with
    | none => dr
    | some base =>
      { dr with
        buf := encodeSector P (BitVec.ofNat 8 dr.curTrack) (BitVec.ofNat 8 dr.mech.sector)
          im.id1 im.id2 (im.sectorData base) }

/-- Set the sector index. -/
def Drive.withSector (dr : Drive) (n : Nat) : Drive := { dr with mech := { dr.mech with sector := n } }

/-- Set the head position. -/
def Drive.withHt (dr : Drive) (n : Nat) : Drive := { dr with mech := { dr.mech with ht := n } }

/-- Set the buffer cursor. -/
def Drive.withPos (dr : Drive) (n : Nat) : Drive := { dr with mech := { dr.mech with pos := n } }

/-- Store a stepper phase. -/
def Drive.withPhase (dr : Drive) (p : Bits2) : Drive := { dr with mech := { dr.mech with phase := p } }

/-- `move_head` (R188). -/
def Drive.moveHead (P : Params) (dr : Drive) (ht' : Nat) : Drive :=
  if ht' / 2 = dr.mech.ht / 2 then dr.withHt ht'
  else
    match dr.img with
    | none => (dr.withHt ht').regen P
    | some im => ((dr.withHt ht').withSector (dr.mech.sector % sptOf P im.format (ht' / 2))).regen P

/-- The head position a phase write leads to (R187): one half-track up for the next code of the
cycle, one down for the code before, clamped to `2 .. 2 * max_track`; else where it was. -/
def steppedHt (maxTrack ht : Nat) (old new : Bits2) : Nat :=
  if new = old + 1 then min (ht + 1) (2 * maxTrack)
  else if new = old + 3 then max (ht - 1) 2
  else ht

/-- `MECH.STEP` (R187): the phase is always stored. -/
def Drive.step (P : Params) (dr : Drive) (new : Bits2) : Drive :=
  (dr.withPhase new).moveHead P (steppedHt (dr.maxTrack P) dr.mech.ht dr.mech.phase new)

/-- `set_motor_zone` (R189). -/
def Drive.setMotorZone (P : Params) (dr : Drive) (m : Bool) (z : Bits2) : Drive :=
  if m = dr.mech.motor ∧ z = dr.mech.zone then dr
  else if m then
    { dr with mech := { dr.mech with
        motor := true, zone := z, timerArmed := true, timerPeriod := zonePeriodOf P z } }
  else { dr with mech := { dr.mech with motor := false, zone := z, timerArmed := false } }

/-- `MECH.CTRL` (R186) on one drive. -/
def Drive.control (P : Params) (dr : Drive) (c : Byte) : Drive :=
  (dr.step P (ctrlStep P c)).setMotorZone P (ctrlMotor P c) (ctrlFreq P c)

/-- `advance` (R183). -/
def Drive.advance (P : Params) (dr : Drive) : Drive :=
  if dr.mech.pos < 364 then dr.withPos (dr.mech.pos + 1)
  else
    match dr.img with
    | none => dr.withPos 0
    | some im =>
      ((dr.withPos 0).withSector ((dr.mech.sector + 1) % sptOf P im.format dr.curTrack)).regen P

/-- `detect_sync` (R184), on the byte now under the head. -/
def Drive.detectSync (dr : Drive) : Drive :=
  let n := nextFf dr.mech.ffcount dr.headByte
  { dr with mech := { dr.mech with ffcount := n, sync := decide (n = 5) } }

/-! ### Chips -/

/-- The chip a VIA operand names. -/
def viaChip (b dd : ViaChip) : ViaId → ViaChip
  | .viab => b
  | .viad => dd

/-- Change one chip of a VIA pair; a TPI drive has none. -/
def Controller.mapVia (c : ViaId) (f : ViaChip → ViaChip) : Controller → Controller
  | .via b dd =>
    match c with
    | .viab => .via (f b) dd
    | .viad => .via b (f dd)
  | .tpi t => .tpi t

/-- Change the TPI; a VIA drive has none. -/
def Controller.mapTpi (f : TpiChip → TpiChip) : Controller → Controller
  | .via b dd => .via b dd
  | .tpi t => .tpi (f t)

/-- One chip's part of `IRQ.UPDATE` (R277): the retry flag and the stored output of a chip whose
output function now answers `new`, `other` telling whether another chip of the drive requests. -/
def ViaChip.latchIrq (c : ViaChip) (new other : Bool) : ViaChip :=
  if new = c.chipIrq then c
  else { c with chipIrq := new, irqRetry := if new then c.irqRetry || other else false }

/-- The same for the one chip of a TPI drive, which never collides (R277). -/
def TpiChip.latchIrq (t : TpiChip) (new : Bool) : TpiChip :=
  if new = t.chipIrq then t
  else { t with chipIrq := new, irqRetry := if new then t.irqRetry else false }

/-- The chip loop of `IRQ.UPDATE` (R277): `VIAB`, then `VIAD`; or the TPI. -/
def Controller.updateIrq (P : Params) : Controller → Controller
  | .via b dd =>
    let b' := b.latchIrq (viaIrqFn P b) dd.chipIrq
    .via b' (dd.latchIrq (viaIrqFn P dd) b'.chipIrq)
  | .tpi t => .tpi (t.latchIrq (tpiIrqFn P t))

/-- The OR of the drive's chip interrupt outputs (R276). -/
def Controller.request : Controller → Bool
  | .via b dd => b.chipIrq || dd.chipIrq
  | .tpi t => t.chipIrq

/-- Some chip of the drive waits for the retry timer (R50). -/
def Controller.anyRetry : Controller → Bool
  | .via b dd => b.irqRetry || dd.irqRetry
  | .tpi t => t.irqRetry

/-- Clear every `irq_retry[c]` of the drive (R193). -/
def Controller.clearRetry : Controller → Controller
  | .via b dd => .via { b with irqRetry := false } { dd with irqRetry := false }
  | .tpi t => .tpi { t with irqRetry := false }

/-- The registers and flags of a VIA-style chip that `chip_reset` clears (R301). -/
def ViaChip.clear (c : ViaChip) : ViaChip :=
  { c with ora := 0, orb := 0, ddra := 0, ddrb := 0, ct := ⟨0, 0, 0, 0⟩, ca1Flag := false, otherIrq := false }

/-- The registers of the TPI that `chip_reset` sets (R301); `hs_dav` is not among them. -/
def TpiChip.clear (t : TpiChip) : TpiChip :=
  { t with pra := 0, prb := 0, prc := 0, ddra := 0, ddrb := 0, ddrc := 0, cr := 0, air := 0,
           irqLevel := Vector.replicate 5 true, hsAck := true }

/-- The register part of `chip_reset` (R301). -/
def Controller.clear : Controller → Controller
  | .via b dd => .via b.clear dd.clear
  | .tpi t => .tpi t.clear

/-- `apply_ack` (R260). -/
def TpiChip.applyAck (P : Params) (t : TpiChip) : TpiChip :=
  if crMc P t then t
  else { t with hsAck := if bitAt t.ddrc P.pinmapTpi.ack then bitAt t.prc P.pinmapTpi.ack else true }

/-! ### The state -/

/-- `emit E` (R10). -/
def State.emit (s : State) (e : Event) : State := { s with events := e :: s.events }

/-- The value an operation returns to its agent. -/
def State.returns (s : State) (r : Result) : State := { s with result := r }

/-- Change one drive. -/
def State.mapDrive (s : State) (d : Nat) (f : Drive → Drive) : State :=
  { s with drives := s.drives.modify d f }

/-- Change the controller of one drive. -/
def State.mapCtl (s : State) (d : Nat) (f : Controller → Controller) : State :=
  s.mapDrive d fun dr => { dr with ctl := f dr.ctl }

/-- `retry_armed <- (some powered drive and chip has irq_retry = 1)` (R277, R280). -/
def State.recountRetry (s : State) : State :=
  { s with retryArmed := s.drives.any fun dr => dr.powered && dr.ctl.anyRetry }

/-- The chip outputs and the CPU interrupt input of one drive recomputed (R275, R276, R277). -/
def Drive.updateIrq (P : Params) (dr : Drive) : Drive :=
  { dr with ctl := dr.ctl.updateIrq P, cpuIrq := (dr.ctl.updateIrq P).request }

/-- `IRQ.UPDATE d` (R277), the block's one way to change what it presents to a CPU: recompute the
chip outputs, then `cpu_irq` (emitting a change), then `retry_armed`. The block saves nothing and
transfers control nowhere (R282); the request is withdrawn by the access that clears the pending
bit, through this same operation (R283). -/
def State.irqUpdate (s : State) (d : Nat) : State :=
  match s.drives[d]? with
  | none => s
  | some dr =>
    let s1 := s.mapDrive d (Drive.updateIrq s.params)
    let level := (dr.updateIrq s.params).cpuIrq
    (if level = dr.cpuIrq then s1 else s1.emit (.cpuIrq d level)).recountRetry

/-- Set or clear the control-input flag of a VIA chip, then `IRQ.UPDATE` (R221 to R223). -/
def State.setCa1 (s : State) (d : Nat) (c : ViaId) (v : Bool) : State :=
  (s.mapCtl d (Controller.mapVia c fun ch => { ch with ca1Flag := v })).irqUpdate d

/-- `notify(q, l, v)`, `BUS.NOTIFY` (R165, R221). -/
def State.notify (s : State) (q : Nat) (l : Line) (v : Bool) : State :=
  if q = 0 then s.emit (.busEdge 0 l v)
  else
    match s.drives[q - 1]? with
    | none => s
    | some dr =>
      if dr.powered then
        let s1 := s.emit (.busEdge q l v)
        match dr.ctl with
        | .via b _ => if l = .atn ∧ atnEdgeActive s.params b v then s1.setCa1 (q - 1) .viab true else s1
        | .tpi _ => s1
      else s

/-- The notifications of one line change, participant 0 first (R161). -/
def State.notifyAll (s : State) (l : Line) (v : Bool) : State :=
  (List.range s.bus.latches.length).foldl (fun s q => s.notify q l v) s

/-- The wired AND of every participant's latch of line `l` (R160, R163). -/
def Bus.wiredAnd (b : Bus) (l : Line) : Bool := b.latches.all fun p => p.get l

/-- Store one latch (R161). -/
def State.setLatch (s : State) (p : Nat) (l : Line) (v : Bool) : State :=
  { s with bus := { s.bus with latches := s.bus.latches.modify p fun x => x.set l v } }

/-- Store one line value (R161). -/
def State.setLine (s : State) (l : Line) (v : Bool) : State :=
  { s with bus := { s.bus with line := s.bus.line.set l v } }

/-- `BUS.SET`, `set_output(p, l, v)` (R161): the latch, the line recomputed, and every notification
if it changed. -/
def State.busSet (s : State) (p : Nat) (l : Line) (v : Bool) : State :=
  let s1 := s.setLatch p l v
  let new := s1.bus.wiredAnd l
  if new = s1.bus.line.get l then s1 else (s1.setLine l new).notifyAll l new

/-- `apply_bus_outputs(d)` (R216): DATA, then CLOCK, as the bus chip's driven pins say. -/
def State.applyBusOutputs (s : State) (d : Nat) : State :=
  match s.drives[d]? with
  | none => s
  | some dr =>
    match dr.ctl with
    | .tpi _ => s
    | .via b _ =>
      (s.busSet (1 + d) .data (viabOut s.params b s.params.pinmapViab.dataOut)).busSet (1 + d) .clock
        (viabOut s.params b s.params.pinmapViab.clkOut)

/-- `MECH.CTRL d, c` (R186). -/
def State.mechCtrl (s : State) (d : Nat) (c : Byte) : State :=
  s.mapDrive d fun dr => dr.control s.params c

/-- The disk chip's driven control pins command the mechanism: `MECH.CTRL(d, orb & ddrb)`
(R220, R228). -/
def State.applyControl (s : State) (d : Nat) : State :=
  match s.drives[d]? with
  | none => s
  | some dr =>
    match dr.ctl with
    | .tpi _ => s
    | .via _ dd => s.mechCtrl d (dd.orb &&& dd.ddrb)

/-- `ready(d)` (R195): the pulse, and in the VIA variant an active edge on the disk chip's control
input (R222). -/
def State.ready (s : State) (d : Nat) : State :=
  let s1 := s.emit (.readyPulse d)
  match s.drives[d]? with
  | none => s1
  | some dr =>
    match dr.ctl with
    | .via _ _ => s1.setCa1 d .viad true
    | .tpi _ => s1

/-- The tick of a drive's rotation timer (R182): advance, detect sync, ready, in this order. -/
def State.tick (s : State) (d : Nat) : State :=
  (s.mapDrive d fun dr => (dr.advance s.params).detectSync).ready d

/-- One free value drawn (R10 `draw`). -/
def State.drawn (s : State) : State := { s with draws := s.draws + 1 }

/-! ### Reset -/

/-- `chip_reset(d)` (R301). -/
def State.chipReset (s : State) (d : Nat) : State := (s.mapCtl d Controller.clear).irqUpdate d

/-- `mech_reset(d)` (R301) on one drive. -/
def Drive.resetMech (P : Params) (dr : Drive) : Drive :=
  Drive.regen P { dr with mech := { dr.mech with
    ht := 2, sector := 0, pos := 0, ffcount := 0, sync := false, motor := false, zone := 0, phase := 0,
    timerArmed := false } }

/-- What `SYS.RESET` does to drive `d` (R300). -/
def State.resetDrive (s : State) (d : Nat) : State :=
  ((s.mapCtl d (Controller.mapTpi fun t => { t with hsDav := true })).chipReset d).mapDrive d
    fun dr => dr.resetMech s.params

/-! ### Who may perform an operation -/

/-- An operation addressed to drive `d` needs that drive to exist (R6). -/
def onDrive (s : State) (d : Nat) (k : Drive → Out) : Out :=
  match s.drives[d]? with
  | none => .refused (.noSuchDrive d)
  | some dr => k dr

/-- An operation addressed to drive `d` that has no step while the drive is off (R292, U15, D34). -/
def onPowered (s : State) (d : Nat) (k : Drive → Out) : Out :=
  onDrive s d fun dr => if dr.powered then k dr else .refused (.drivePoweredOff d)

/-- A chip operation of a VIA drive (R94, and the enabling condition of `43_controller_via.md`). -/
def onVia (s : State) (d : Nat) (k : Drive → ViaChip → ViaChip → Out) : Out :=
  onDrive s d fun dr =>
    match dr.ctl with
    | .tpi _ => .refused (.noSuchChip d)
    | .via b dd => if dr.powered then k dr b dd else .refused (.drivePoweredOff d)

/-- A chip operation of a TPI drive that needs no power: the host's read of the handshake (R264). -/
def onTpiDrive (s : State) (d : Nat) (k : Drive → TpiChip → Out) : Out :=
  onDrive s d fun dr =>
    match dr.ctl with
    | .via _ _ => .refused (.noSuchChip d)
    | .tpi t => k dr t

/-- A chip operation of a powered TPI drive (the enabling condition of `44_controller_tpi.md`). -/
def onTpi (s : State) (d : Nat) (k : Drive → TpiChip → Out) : Out :=
  onTpiDrive s d fun dr t => if dr.powered then k dr t else .refused (.drivePoweredOff d)

/-- The operation completes and returns `r`. -/
def done (s : State) (r : Result) : Out := .next (s.returns r)

end Sys2Proof.Machine
end

