-- ==== Sys2Proof/Machine/Agents.lean ====
section
/-! DEFINITION. The agents and the domain of each agent's moves (`00_scope.md` R8, R90 to R92,
R286). A domain is what an agent's wiring reaches, not a check: `exec` performs any operation
("Nothing stops any agent from performing any operation"). -/

namespace Sys2Proof.Machine

/-- Drive `d` is of the VIA variant. -/
def State.hasVia (s : State) (d : Nat) : Bool :=
  match s.drives[d]? with
  | some dr => match dr.ctl with
    | .via _ _ => true
    | .tpi _ => false
  | none => false

/-- Drive `d` is of the TPI variant. -/
def State.hasTpi (s : State) (d : Nat) : Bool :=
  match s.drives[d]? with
  | some dr => match dr.ctl with
    | .via _ _ => false
    | .tpi _ => true
  | none => false

/-- The agent is the host or the CPU of a drive of the machine: a participant (R160). -/
def State.participant (s : State) : Agent → Bool
  | .host => true
  | .driveCpu d => decide (d < s.drives.length)
  | .rotationTimer _ => false
  | .retryTimer => false
  | .frontend => false
  | .wiring => false
  | .invoked => false

/-- The CPU of drive `d`, through a chip of its VIA variant. -/
def State.viaCpu (s : State) (a : Agent) (d : Nat) : Bool := decide (a = .driveCpu d) && s.hasVia d

/-- The CPU of drive `d`, through the chip of its TPI variant. -/
def State.tpiCpu (s : State) (a : Agent) (d : Nat) : Bool := decide (a = .driveCpu d) && s.hasTpi d

/-- The domain of each agent's moves (R8, R286; the column "performed by" of R92). Only drive `d`'s
CPU reaches drive `d`'s chips; only the host performs `BUS.SET` with `p = 0`; `BUS.SET` of a drive's
participant is invoked by its bus chip (R161, R216) and is in no outside agent's domain; nor are the
`FUN` rows (R90). -/
def State.performs (s : State) (a : Agent) : Instr → Bool
  | .viabRdPb d => s.viaCpu a d
  | .viabRdPa d => s.viaCpu a d
  | .viabWrPb d _ => s.viaCpu a d
  | .viabWrPa d _ => s.viaCpu a d
  | .viadRdPb d => s.viaCpu a d
  | .viadRdPa d => s.viaCpu a d
  | .viadWrPb d _ => s.viaCpu a d
  | .viadWrPa d _ => s.viaCpu a d
  | .viaRdDdrb d _ => s.viaCpu a d
  | .viaRdDdra d _ => s.viaCpu a d
  | .viaWrDdrb d _ _ => s.viaCpu a d
  | .viaWrDdra d _ _ => s.viaCpu a d
  | .viaRdCt d _ _ => s.viaCpu a d
  | .viaWrCt d _ _ _ => s.viaCpu a d
  | .tpiRdPa d => s.tpiCpu a d
  | .tpiRdPb d => s.tpiCpu a d
  | .tpiRdPc d => s.tpiCpu a d
  | .tpiRdDdra d => s.tpiCpu a d
  | .tpiRdDdrb d => s.tpiCpu a d
  | .tpiRdDdrc d => s.tpiCpu a d
  | .tpiRdCr d => s.tpiCpu a d
  | .tpiRdAir d => s.tpiCpu a d
  | .tpiWrPa d _ => s.tpiCpu a d
  | .tpiWrPb d _ => s.tpiCpu a d
  | .tpiWrPc d _ => s.tpiCpu a d
  | .tpiWrDdra d _ => s.tpiCpu a d
  | .tpiWrDdrb d _ => s.tpiCpu a d
  | .tpiWrDdrc d _ => s.tpiCpu a d
  | .tpiWrCr d _ => s.tpiCpu a d
  | .tpiWrAir d _ => s.tpiCpu a d
  | .sysReset => decide (a = .frontend)
  | .sysPwron _ => decide (a = .frontend)
  | .sysPwroff _ => decide (a = .frontend)
  | .sysMount _ _ _ _ _ => decide (a = .frontend)
  | .sysUnmount _ => decide (a = .frontend)
  | .mechTick d => decide (a = .rotationTimer d)
  | .mechCtrl d _ => s.tpiCpu a d || (decide (a = .invoked) && s.hasVia d)
  | .irqRetry => decide (a = .retryTimer)
  | .busSet p _ _ => decide (a = if p = 0 then .host else .invoked)
  | .busGet _ => s.participant a
  | .parEnable _ => decide (a = .host)
  | .parWrdata _ => s.participant a
  | .parRddata => s.participant a
  | .parWrack _ => s.participant a
  | .parRdack => s.participant a
  | .tpiIrqin _ _ _ => decide (a = .wiring)
  | .tpiHostwr _ _ => decide (a = .host)
  | .tpiHostrd _ => decide (a = .host)
  | .viaOtherirq _ _ _ => decide (a = .wiring)
  | .gcrEnc4 _ _ _ _ => decide (a = .invoked)
  | .gcrDec5 _ => decide (a = .invoked)
  | .gcrEncsec _ _ _ _ _ => decide (a = .invoked)
  | .gcrDechdr _ => decide (a = .invoked)
  | .gcrDecdata _ => decide (a = .invoked)
  | .dskBuild _ => decide (a = .invoked)
  | .dskOffset _ _ _ => decide (a = .invoked)
  | .mechRegen _ => decide (a = .invoked)
  | .mechStep _ _ => decide (a = .invoked)
  | .busNotify _ _ _ => decide (a = .invoked)
  | .irqUpdate _ => decide (a = .invoked)

/-- Every presented operation is in the domain of the agent that presents it. -/
def State.Wired (s : State) : Prop :=
  ∀ r ∈ s.requests, ∀ i, decode r = .ok i → s.performs r.agent i = true

/-- An agent acts only while it runs: "a drive's CPU runs while `powered = 1`" (R289), and while off
"no operation of the drive's CPU ... has a step" (R292), whatever the operation is. -/
def onAgent (s : State) (a : Agent) (k : Out) : Out :=
  match a with
  | .driveCpu d => onPowered s d fun _ => k
  | .host => k
  | .rotationTimer _ => k
  | .retryTimer => k
  | .frontend => k
  | .wiring => k
  | .invoked => k

end Sys2Proof.Machine
end

