-- ==== Sys2Proof/Machine/BusOps.lean ====
section
/-! DEFINITION. The operations of the serial bus and of the fast/parallel pair
(`41_serial_bus.md`, R160 to R173). -/

namespace Sys2Proof.Machine

/-- The agent of participant `p` can act: the host always, drive `p - 1` while it is powered
(R160, R292, entry 14). -/
def onParticipant (s : State) (p : Nat) (k : Out) : Out :=
  if p = 0 then k
  else
    match s.drives[p - 1]? with
    | none => .refused (.noSuchParticipant p)
    | some dr => if dr.powered then k else .refused (.drivePoweredOff (p - 1))

/-- `BUS.SET` (R161), for any participant and any line, as the rule and its example have it. Who
performs it is no check (R286): only the host has it among its moves, with `p = 0`; a drive's bus
chip invokes it with `p = 1 + d` for DATA and CLOCK (`State.applyBusOutputs`, R216), and no outside
agent can (`State.performs`). -/
def execBusSet (p : Nat) (l : Line) (v : Bool) (s : State) : Out :=
  onParticipant s p (done (s.busSet p l v) .none)

/-- `BUS.GET` (R164). -/
def execBusGet (l : Line) (s : State) : Out := done s (.bit (s.bus.line.get l))

/-- `BUS.NOTIFY` (R165): a participant whose drive is not powered is notified of nothing. -/
def execBusNotify (q : Nat) (l : Line) (v : Bool) (s : State) : Out :=
  if q < s.bus.latches.length then done (s.notify q l v) .none else .refused (.noSuchParticipant q)

/-- `PAR.ENABLE` (R168). -/
def execParEnable (v : Bool) (s : State) : Out :=
  done { s with par := { s.par with enable := v } } .none

/-- `PAR.WRDATA` (R169). -/
def execParWrdata (v : Byte) (s : State) : Out :=
  done (if s.par.enable then { s with par := { s.par with data := v } } else s) .none

/-- `PAR.RDDATA` (R170). -/
def execParRddata (s : State) : Out := done s (.byte (if s.par.enable then s.par.data else 0xFF))

/-- `PAR.WRACK` (R171). -/
def execParWrack (v : Bool) (s : State) : Out :=
  done (if s.par.enable then { s with par := { s.par with ack := v } } else s) .none

/-- `PAR.RDACK` (R172). -/
def execParRdack (s : State) : Out := done s (.bit (if s.par.enable then s.par.ack else true))

end Sys2Proof.Machine
end

