-- ==== Sys2Proof/Machine/GcrOps.lean ====
section
/-! DEFINITION. The pure functions of the codec and of disk addressing as operations
(`40_gcr_codec.md`, R130 to R144). -/

namespace Sys2Proof.Machine

/-- `GCR.ENC4` (R131). -/
def execGcrEnc4 (a b c e : Byte) (s : State) : Out :=
  done s (.bytes (encode4to5 s.params.gcrTable a b c e))

/-- `GCR.DEC5` (R132): `invalid` is a returned value. -/
def execGcrDec5 (group : List Byte) (s : State) : Out :=
  done s (match decode5to4 s.params.gcrTable group with
    | none => .invalid
    | some (a, b, c, e) => .bytes [a, b, c, e])

/-- `GCR.ENCSEC` (R133). -/
def execGcrEncsec (track sector id1 id2 : Byte) (data : List Byte) (s : State) : Out :=
  done s (.bytes (encodeSector s.params track sector id1 id2 data))

/-- `GCR.DECHDR` (R137). -/
def execGcrDechdr (group : List Byte) (s : State) : Out :=
  done s (match decodeHeader s.params.gcrTable group with
    | none => .invalid
    | some h => .header h h.valid)

/-- `GCR.DECDATA` (R138). -/
def execGcrDecdata (groups : List Byte) (s : State) : Out :=
  done s (match decodeData s.params.gcrTable groups with
    | none => .invalid
    | some (data, xsum, ok) => .data data xsum ok)

/-- `DSK.BUILD` (R139). -/
def execDskBuild (format : Format) (s : State) : Out := done s (.table (buildTable s.params format))

/-- `DSK.OFFSET` (R140); a track outside the table is outside the function's domain (R141). -/
def execDskOffset (table : List Nat) (track sector : Nat) (s : State) : Out :=
  match offset? table track sector with
  | none => .refused (.trackOutOfRange track)
  | some a => done s (.address a)

end Sys2Proof.Machine
end

