-- ==== Sys2Proof/Machine/MechOps.lean ====
section
/-! DEFINITION. The operations of the drive mechanism and of interrupt delivery
(`42_drive_mechanism.md`, `60_exceptions.md`, R135, R182 to R190, R277 to R280). -/

namespace Sys2Proof.Machine

/-- `MECH.TICK` (R182): enabled while the rotation timer is armed. -/
def execMechTick (d : Nat) (s : State) : Out :=
  onDrive s d fun dr =>
    if dr.mech.timerArmed then done (s.tick d) .none else .refused (.timerDisarmed d)

/-- `MECH.CTRL` (R186). -/
def execMechCtrl (d : Nat) (c : Byte) (s : State) : Out :=
  onPowered s d fun _ => done (s.mechCtrl d c) .none

/-- `MECH.REGEN` (R135) as an operation addressed to drive `d`, which a drive that is off ignores
(U15, D34); `SYS.RESET` and `SYS.MOUNT` invoke `Drive.regen` by their own rules. -/
def execMechRegen (d : Nat) (s : State) : Out :=
  onPowered s d fun _ => done (s.mapDrive d fun dr => dr.regen s.params) .none

/-- `MECH.STEP` (R187); a drive that is off ignores it (U15, D34). -/
def execMechStep (d : Nat) (new : Bits2) (s : State) : Out :=
  onPowered s d fun _ => done (s.mapDrive d fun dr => dr.step s.params new) .none

/-- `IRQ.UPDATE` (R277) as an operation addressed to drive `d`, which a drive that is off ignores
(U15, D34); a reset invokes `State.irqUpdate` by its own rule. -/
def execIrqUpdate (d : Nat) (s : State) : Out := onPowered s d fun _ => done (s.irqUpdate d) .none

/-- The chips of a drive whose waiting request the retry timer can deliver now: no other chip of
the drive requests (R279). DESIGN CHOICE (entry 24): they are listed in the order `VIAB`, `VIAD`;
R279 names no order, and in a sound state at most one chip of a drive is deliverable. -/
def Controller.deliverable : Controller → List ChipId
  | .via b dd =>
    (if b.irqRetry && !dd.chipIrq then [ChipId.viab] else [])
      ++ (if dd.irqRetry && !b.chipIrq then [ChipId.viad] else [])
  | .tpi t => if t.irqRetry then [ChipId.tpi] else []

/-- The retry flags after those requests are delivered (R279). -/
def Controller.deliver : Controller → Controller
  | .via b dd =>
    .via { b with irqRetry := b.irqRetry && dd.chipIrq } { dd with irqRetry := dd.irqRetry && b.chipIrq }
  | .tpi t => .tpi { t with irqRetry := false }

/-- One firing of the retry timer for drive `d` (R279). -/
def State.retryDrive (s : State) (d : Nat) : State :=
  match s.drives[d]? with
  | none => s
  | some dr =>
    if dr.powered then
      (dr.ctl.deliverable.foldl (fun s c => s.emit (.irqDelivered d c)) s).mapCtl d Controller.deliver
    else s

/-- `IRQ.RETRY` (R279): enabled while the retry timer is armed. DESIGN CHOICE (entry 24): R279 says
"for each powered drive d" and no order, and the model takes the drives in ascending number, which
is the order in which their `irq_delivered` events are emitted; every other effect is the same in
any order. -/
def execIrqRetry (s : State) : Out :=
  if s.retryArmed then
    done ((List.range s.drives.length).foldl State.retryDrive s).recountRetry .none
  else .refused .retryDisarmed

end Sys2Proof.Machine
end

