-- ==== Sys2Proof/Machine/SysOps.lean ====
section
/-! DEFINITION. Reset, power, mount and unmount (`70_reset_and_hazards.md`, `42_drive_mechanism.md`,
R192, R193, R300 to R303). -/

namespace Sys2Proof.Machine

/-- `SYS.RESET` (R300): bus and pair idle, every drive's chips and mechanism reset, no line
notification; `powered`, `img` and `wp` stay. -/
def execSysReset (s : State) : Out :=
  let s1 := { s with
    bus := ⟨s.bus.latches.map fun _ => Lines.released, Lines.released⟩
    par := ⟨false, true, 0xFF⟩ }
  let s2 := (List.range s.drives.length).foldl State.resetDrive s1
  done { s2 with retryArmed := false } .none

/-- `SYS.PWRON` (R302): enabled while the drive is off. -/
def execSysPwron (d : Nat) (s : State) : Out :=
  onDrive s d fun dr =>
    if dr.powered then .refused (.drivePoweredOn d)
    else done ((s.mapDrive d fun dr => { dr with powered := true }).chipReset d) .none

/-- The mechanism and power fields `SYS.PWROFF` clears (R303). -/
def Drive.powerOff (dr : Drive) : Drive :=
  { dr with
    powered := false
    mech := { dr.mech with
      motor := false, timerArmed := false, ffcount := 0, sync := false, zone := 0, phase := 0 } }

/-- `SYS.PWROFF` (R303): chips reset, mechanism idle, power off, then the three latches released
through `BUS.SET` with notifications. -/
def execSysPwroff (d : Nat) (s : State) : Out :=
  onPowered s d fun _ =>
    let s1 := (s.chipReset d).mapDrive d Drive.powerOff
    let s2 := ((s1.busSet (1 + d) .atn true).busSet (1 + d) .clock true).busSet (1 + d) .data true
    done s2.recountRetry .none

/-- The image record `SYS.MOUNT` makes (R192, R139, R144). -/
def mountImage (P : Params) (f : Format) (cells : List Host.Cell) (len : Nat) : Image :=
  let bytes := Memory.ofCells cells len
  let at' := fun a => if a < len then Memory.read bytes a else 0
  { format := f, bytes := bytes, len := len, table := buildTable P f, maxTrack := maxTrackOf P f
    id1 := at' (P.formats.get f).idOffset, id2 := at' ((P.formats.get f).idOffset + 1) }

/-- The fields of the drive that `SYS.MOUNT` writes (R192). -/
def Drive.mount (P : Params) (dr : Drive) (im : Image) (wp : Bool) : Drive :=
  Drive.regen P { dr with
    img := some im
    wp := wp
    mech := { dr.mech with
      ht := min dr.mech.ht (2 * im.maxTrack), sector := 0, pos := 0, ffcount := 0, sync := false } }

/-- `SYS.MOUNT` (R192): enabled while no image is mounted. -/
def execSysMount (d : Nat) (format : Format) (bytes : List Host.Cell) (len : Nat) (wp : Bool)
    (s : State) : Out :=
  onDrive s d fun dr =>
    match dr.img with
    | some _ => .refused (.imageMounted d)
    | none =>
      done (s.mapDrive d fun dr => dr.mount s.params (mountImage s.params format bytes len) wp) .none

/-- The fields of the drive that `SYS.UNMOUNT` writes (R193). -/
def Drive.unmount (P : Params) (dr : Drive) : Drive :=
  { dr with
    img := none
    wp := false
    mech := { dr.mech with
      ht := min dr.mech.ht (2 * P.noimgMaxTrack), motor := false, timerArmed := false }
    ctl := dr.ctl.clearRetry }

/-- `SYS.UNMOUNT` (R193). -/
def execSysUnmount (d : Nat) (s : State) : Out :=
  onDrive s d fun _ => done (s.mapDrive d fun dr => dr.unmount s.params).recountRetry .none

end Sys2Proof.Machine
end

