-- ==== Sys2Proof/Machine/Tpi.lean ====
section
/-! DEFINITION. The operations of the TPI6525 controller (`44_controller_tpi.md`, R240 to R264). -/

namespace Sys2Proof.Machine

/-- Change the TPI of drive `d`. -/
def State.mapTpi (s : State) (d : Nat) (f : TpiChip → TpiChip) : State :=
  s.mapCtl d (Controller.mapTpi f)

/-- `TPI.RD.PA` (R245): the GCR byte under the head. -/
def execTpiRdPa (d : Nat) (s : State) : Out :=
  onTpi s d fun dr t => done s (.byte (readBack dr.headByte t.pra t.ddra))

/-- `TPI.RD.PB` (R246). -/
def execTpiRdPb (d : Nat) (s : State) : Out :=
  onTpi s d fun _ t => done s (.byte (readBack s.params.floatIn t.prb t.ddrb))

/-- `TPI.RD.PC` (R247); in interrupt mode bits 5:0 are a FREE VALUE, `draw(6 bits)`, and bits 7:6
as in port mode (R248, entry 7). -/
def execTpiRdPc (d : Nat) (s : State) : Out :=
  onTpi s d fun dr t =>
    let r := readBack (tpiPinsC s.params dr.devSel t.hsDav dr.mech.sync) t.prc t.ddrc
    if crMc s.params t then done s.drawn (.byte (r.extractLsb' 6 2 ++ Config.drawSix s.draws))
    else done s (.byte r)

/-- `TPI.RD.DDRA` (R249). -/
def execTpiRdDdra (d : Nat) (s : State) : Out := onTpi s d fun _ t => done s (.byte t.ddra)

/-- `TPI.RD.DDRB` (R250). -/
def execTpiRdDdrb (d : Nat) (s : State) : Out := onTpi s d fun _ t => done s (.byte t.ddrb)

/-- `TPI.RD.DDRC` (R251). -/
def execTpiRdDdrc (d : Nat) (s : State) : Out := onTpi s d fun _ t => done s (.byte t.ddrc)

/-- `TPI.RD.CR` (R252). -/
def execTpiRdCr (d : Nat) (s : State) : Out := onTpi s d fun _ t => done s (.byte t.cr)

/-- The byte a read of `AIR` returns (R258). -/
def airReported (P : Params) (t : TpiChip) : Byte := if crIp P t then highestPending t.air else t.air

/-- `TPI.RD.AIR` (R258): priorized, the highest pending source is reported and cleared;
non-priorized, all are. -/
def execTpiRdAir (d : Nat) (s : State) : Out :=
  onTpi s d fun _ t =>
    done ((s.mapTpi d fun t => { t with air := t.air &&& ~~~(airReported s.params t) }).irqUpdate d)
      (.byte (airReported s.params t))

/-- `TPI.WR.PA` (R253). -/
def execTpiWrPa (d : Nat) (v : Byte) (s : State) : Out :=
  onTpi s d fun _ _ => done (s.mapTpi d fun t => { t with pra := v }) .none

/-- `TPI.WR.PB` (R254). -/
def execTpiWrPb (d : Nat) (v : Byte) (s : State) : Out :=
  onTpi s d fun _ _ => done (s.mapTpi d fun t => { t with prb := v }) .none

/-- `TPI.WR.PC` (R260). -/
def execTpiWrPc (d : Nat) (v : Byte) (s : State) : Out :=
  onTpi s d fun _ _ =>
    done (s.mapTpi d fun t => TpiChip.applyAck s.params { t with prc := v }) .none

/-- `TPI.WR.DDRA` (R261). -/
def execTpiWrDdra (d : Nat) (v : Byte) (s : State) : Out :=
  onTpi s d fun _ _ => done (s.mapTpi d fun t => { t with ddra := v }) .none

/-- `TPI.WR.DDRB` (R262). -/
def execTpiWrDdrb (d : Nat) (v : Byte) (s : State) : Out :=
  onTpi s d fun _ _ => done (s.mapTpi d fun t => { t with ddrb := v }) .none

/-- `TPI.WR.DDRC` (R255). -/
def execTpiWrDdrc (d : Nat) (v : Byte) (s : State) : Out :=
  onTpi s d fun _ _ =>
    done (s.mapTpi d fun t => TpiChip.applyAck s.params { t with ddrc := v }) .none

/-- `TPI.WR.CR` (R257). -/
def execTpiWrCr (d : Nat) (v : Byte) (s : State) : Out :=
  onTpi s d fun _ _ =>
    done ((s.mapTpi d fun t => TpiChip.applyAck s.params { t with cr := v }).irqUpdate d) .none

/-- `TPI.WR.AIR` (R259): no effect on any state. -/
def execTpiWrAir (d : Nat) (_v : Byte) (s : State) : Out := onTpi s d fun _ _ => done s .none

/-- R256: a change of input `n` to `level` makes its source pending: interrupt mode, an active
edge, the source enabled and not already pending. -/
def TpiChip.fires (P : Params) (t : TpiChip) (n : Fin 5) (level : Bool) : Bool :=
  crMc P t && (t.irqLevel[n] != level) && tpiEdgeActive P t n level && t.ddrc.getLsbD n.val
    && !t.air.getLsbD n.val

/-- `irq_level[n] <- level` (R256). -/
def TpiChip.setLevel (t : TpiChip) (n : Fin 5) (level : Bool) : TpiChip :=
  { t with irqLevel := t.irqLevel.set n level }

/-- `air[n] <- 1` (R256). -/
def TpiChip.setPending (t : TpiChip) (n : Fin 5) : TpiChip :=
  { t with air := t.air ||| (1#8 <<< n.val) }

/-- `TPI.IRQIN` (R256). -/
def execTpiIrqin (d : Nat) (n : Fin 5) (level : Bool) (s : State) : Out :=
  onTpi s d fun _ t =>
    let s1 := s.mapTpi d fun t => t.setLevel n level
    done (if t.fires s.params n level then (s1.mapTpi d fun t => t.setPending n).irqUpdate d else s1)
      .none

/-- `TPI.HOSTWR` (R263); a drive that is off ignores it (U15, D34, entry 16). -/
def execTpiHostwr (d : Nat) (v : Bool) (s : State) : Out :=
  onTpi s d fun _ _ => done (s.mapTpi d fun t => { t with hsDav := v }) .none

/-- `TPI.HOSTRD` (R264), which says what is read while the drive is off: "When drive d is not powered
hs_ack = 1". -/
def execTpiHostrd (d : Nat) (s : State) : Out := onTpiDrive s d fun _ t => done s (.bit t.hsAck)

end Sys2Proof.Machine
end

