-- ==== Sys2Proof/Machine/Via.lean ====
section
/-! DEFINITION. The operations of the VIA-style controller pair (`43_controller_via.md`, R210 to
R231). -/

namespace Sys2Proof.Machine

/-- `VIAB.RD.PB` (R214). -/
def execViabRdPb (d : Nat) (s : State) : Out :=
  onVia s d fun dr b _ => done s (.byte (readBack (viabPins s.params dr.devSel s.bus.line) b.orb b.ddrb))

/-- `VIAB.RD.PA` (R215): clears the chip's control-input flag (R223). -/
def execViabRdPa (d : Nat) (s : State) : Out :=
  onVia s d fun _ b _ =>
    done (s.setCa1 d .viab false) (.byte (readBack s.params.floatIn b.ora b.ddra))

/-- `VIAB.WR.PB` (R216). -/
def execViabWrPb (d : Nat) (v : Byte) (s : State) : Out :=
  onVia s d fun _ _ _ =>
    done ((s.mapCtl d (Controller.mapVia .viab fun c => { c with orb := v })).applyBusOutputs d) .none

/-- `VIAB.WR.PA` (R217). -/
def execViabWrPa (d : Nat) (v : Byte) (s : State) : Out :=
  onVia s d fun _ _ _ =>
    done ((s.mapCtl d (Controller.mapVia .viab fun c => { c with ora := v })).setCa1 d .viab false) .none

/-- `VIAD.RD.PB` (R219). -/
def execViadRdPb (d : Nat) (s : State) : Out :=
  onVia s d fun dr _ dd =>
    done s (.byte (readBack (viadPins s.params dr.wp dr.mech.sync) dd.orb dd.ddrb))

/-- `VIAD.RD.PA` (R218): the GCR byte under the head; clears the chip's flag (R223). -/
def execViadRdPa (d : Nat) (s : State) : Out :=
  onVia s d fun dr _ dd =>
    done (s.setCa1 d .viad false) (.byte (readBack dr.headByte dd.ora dd.ddra))

/-- `VIAD.WR.PB` (R220). -/
def execViadWrPb (d : Nat) (v : Byte) (s : State) : Out :=
  onVia s d fun _ _ _ =>
    done ((s.mapCtl d (Controller.mapVia .viad fun c => { c with orb := v })).applyControl d) .none

/-- `VIAD.WR.PA` (R225). -/
def execViadWrPa (d : Nat) (v : Byte) (s : State) : Out :=
  onVia s d fun _ _ _ =>
    done ((s.mapCtl d (Controller.mapVia .viad fun c => { c with ora := v })).setCa1 d .viad false) .none

/-- `VIA.RD.DDRB` (R226). -/
def execViaRdDdrb (d : Nat) (c : ViaId) (s : State) : Out :=
  onVia s d fun _ b dd => done s (.byte (viaChip b dd c).ddrb)

/-- `VIA.RD.DDRA` (R227). -/
def execViaRdDdra (d : Nat) (c : ViaId) (s : State) : Out :=
  onVia s d fun _ b dd => done s (.byte (viaChip b dd c).ddra)

/-- The driven port B pins of a chip take effect: bus lines for the bus chip, mechanism control
for the disk chip (R228). -/
def applyPortB (s : State) (d : Nat) : ViaId → State
  | .viab => s.applyBusOutputs d
  | .viad => s.applyControl d

/-- `VIA.WR.DDRB` (R228). -/
def execViaWrDdrb (d : Nat) (c : ViaId) (v : Byte) (s : State) : Out :=
  onVia s d fun _ _ _ =>
    done (applyPortB (s.mapCtl d (Controller.mapVia c fun ch => { ch with ddrb := v })) d c) .none

/-- `VIA.WR.DDRA` (R229). -/
def execViaWrDdra (d : Nat) (c : ViaId) (v : Byte) (s : State) : Out :=
  onVia s d fun _ _ _ =>
    done (s.mapCtl d (Controller.mapVia c fun ch => { ch with ddra := v })) .none

/-- `VIA.RD.CT` (R224): FREE VALUE, `draw(8 bits)` (entry 7); no side effect on the block. -/
def execViaRdCt (d : Nat) (_c : ViaId) (_k : Fin 4) (s : State) : Out :=
  onVia s d fun _ _ _ => done s.drawn (.byte (Config.drawByte s.draws))

/-- `VIA.WR.CT` (R230). -/
def execViaWrCt (d : Nat) (c : ViaId) (k : Fin 4) (v : Byte) (s : State) : Out :=
  onVia s d fun _ _ _ =>
    done ((s.mapCtl d (Controller.mapVia c fun ch => { ch with ct := ctSet ch.ct k v })).irqUpdate d) .none

/-- `VIA.OTHERIRQ` (R231). -/
def execViaOtherirq (d : Nat) (c : ViaId) (level : Bool) (s : State) : Out :=
  onVia s d fun _ _ _ =>
    done ((s.mapCtl d (Controller.mapVia c fun ch => { ch with otherIrq := level })).irqUpdate d) .none

end Sys2Proof.Machine
end

