-- ==== Sys2Proof/Machine/Dispatch.lean ====
section
/-! DEFINITION. The meaning of every operation: one arm per constructor of `Instr`. -/

namespace Sys2Proof.Machine

def exec (i : Instr) (s : State) : Host.Outcome State Fault Refusal :=
  match i with
  | .viabRdPb d => Sys2Proof.Machine.execViabRdPb d s
  | .viabRdPa d => Sys2Proof.Machine.execViabRdPa d s
  | .viabWrPb d v => Sys2Proof.Machine.execViabWrPb d v s
  | .viabWrPa d v => Sys2Proof.Machine.execViabWrPa d v s
  | .viadRdPb d => Sys2Proof.Machine.execViadRdPb d s
  | .viadRdPa d => Sys2Proof.Machine.execViadRdPa d s
  | .viadWrPb d v => Sys2Proof.Machine.execViadWrPb d v s
  | .viadWrPa d v => Sys2Proof.Machine.execViadWrPa d v s
  | .viaRdDdrb d c => Sys2Proof.Machine.execViaRdDdrb d c s
  | .viaRdDdra d c => Sys2Proof.Machine.execViaRdDdra d c s
  | .viaWrDdrb d c v => Sys2Proof.Machine.execViaWrDdrb d c v s
  | .viaWrDdra d c v => Sys2Proof.Machine.execViaWrDdra d c v s
  | .viaRdCt d c k => Sys2Proof.Machine.execViaRdCt d c k s
  | .viaWrCt d c k v => Sys2Proof.Machine.execViaWrCt d c k v s
  | .tpiRdPa d => Sys2Proof.Machine.execTpiRdPa d s
  | .tpiRdPb d => Sys2Proof.Machine.execTpiRdPb d s
  | .tpiRdPc d => Sys2Proof.Machine.execTpiRdPc d s
  | .tpiRdDdra d => Sys2Proof.Machine.execTpiRdDdra d s
  | .tpiRdDdrb d => Sys2Proof.Machine.execTpiRdDdrb d s
  | .tpiRdDdrc d => Sys2Proof.Machine.execTpiRdDdrc d s
  | .tpiRdCr d => Sys2Proof.Machine.execTpiRdCr d s
  | .tpiRdAir d => Sys2Proof.Machine.execTpiRdAir d s
  | .tpiWrPa d v => Sys2Proof.Machine.execTpiWrPa d v s
  | .tpiWrPb d v => Sys2Proof.Machine.execTpiWrPb d v s
  | .tpiWrPc d v => Sys2Proof.Machine.execTpiWrPc d v s
  | .tpiWrDdra d v => Sys2Proof.Machine.execTpiWrDdra d v s
  | .tpiWrDdrb d v => Sys2Proof.Machine.execTpiWrDdrb d v s
  | .tpiWrDdrc d v => Sys2Proof.Machine.execTpiWrDdrc d v s
  | .tpiWrCr d v => Sys2Proof.Machine.execTpiWrCr d v s
  | .tpiWrAir d v => Sys2Proof.Machine.execTpiWrAir d v s
  | .sysReset => Sys2Proof.Machine.execSysReset s
  | .sysPwron d => Sys2Proof.Machine.execSysPwron d s
  | .sysPwroff d => Sys2Proof.Machine.execSysPwroff d s
  | .sysMount d format bytes len wp => Sys2Proof.Machine.execSysMount d format bytes len wp s
  | .sysUnmount d => Sys2Proof.Machine.execSysUnmount d s
  | .mechTick d => Sys2Proof.Machine.execMechTick d s
  | .mechCtrl d c => Sys2Proof.Machine.execMechCtrl d c s
  | .irqRetry => Sys2Proof.Machine.execIrqRetry s
  | .busSet p l v => Sys2Proof.Machine.execBusSet p l v s
  | .busGet l => Sys2Proof.Machine.execBusGet l s
  | .parEnable v => Sys2Proof.Machine.execParEnable v s
  | .parWrdata v => Sys2Proof.Machine.execParWrdata v s
  | .parRddata => Sys2Proof.Machine.execParRddata s
  | .parWrack v => Sys2Proof.Machine.execParWrack v s
  | .parRdack => Sys2Proof.Machine.execParRdack s
  | .tpiIrqin d n level => Sys2Proof.Machine.execTpiIrqin d n level s
  | .tpiHostwr d v => Sys2Proof.Machine.execTpiHostwr d v s
  | .tpiHostrd d => Sys2Proof.Machine.execTpiHostrd d s
  | .viaOtherirq d c level => Sys2Proof.Machine.execViaOtherirq d c level s
  | .gcrEnc4 a b c e => Sys2Proof.Machine.execGcrEnc4 a b c e s
  | .gcrDec5 group => Sys2Proof.Machine.execGcrDec5 group s
  | .gcrEncsec track sector id1 id2 data => Sys2Proof.Machine.execGcrEncsec track sector id1 id2 data s
  | .gcrDechdr group => Sys2Proof.Machine.execGcrDechdr group s
  | .gcrDecdata groups => Sys2Proof.Machine.execGcrDecdata groups s
  | .dskBuild format => Sys2Proof.Machine.execDskBuild format s
  | .dskOffset table track sector => Sys2Proof.Machine.execDskOffset table track sector s
  | .mechRegen d => Sys2Proof.Machine.execMechRegen d s
  | .mechStep d new => Sys2Proof.Machine.execMechStep d new s
  | .busNotify q l v => Sys2Proof.Machine.execBusNotify q l v s
  | .irqUpdate d => Sys2Proof.Machine.execIrqUpdate d s

end Sys2Proof.Machine
end

