-- ==== Sys2Proof/Machine/Step.lean ====
section
/-! DEFINITION. One step: the next presented operation is taken from the list, decoded and
performed (R8). -/

namespace Sys2Proof.Machine

/-- The state in which the next presented operation has been taken off the list. -/
def State.withRequests (s : State) (rest : List Request) : State := { s with requests := rest }

/-- One step of the machine: one operation, performed to completion (R8) by the agent that presents
it. With nothing presented there is no step: "The block itself never acts spontaneously". -/
def step (s : State) : Host.Outcome State Fault Refusal :=
  match s.requests with
  | [] => .refused .noOperation
  | r :: rest =>
    match decode r with
    | .error (.reservedTag t) => .refused (.reservedTag t)
    | .error (.badOperand t) => .refused (.badOperand t)
    | .ok i => onAgent s r.agent (exec i (s.withRequests rest))

/-- The tag belongs to the TPI family (R91: `cc = 10`; R92: `TPI.IRQIN`, `TPI.HOSTWR`,
`TPI.HOSTRD`). -/
def needsTpi (w : Nat) : Bool :=
  let t := w % 256
  (decide (0x20 ≤ t) && decide (t ≤ 0x2F)) || (decide (0x8F ≤ t) && decide (t ≤ 0x91))

/-- The tag belongs to the VIA family (R91: `cc = 00`, `01`; R92: `VIA.OTHERIRQ`). -/
def needsVia (w : Nat) : Bool :=
  let t := w % 256
  decide (t ≤ 0x1F) || decide (t = 0x92)

/-- A controller of the variant the tag names (R94), reset if the drive's own is the other one. -/
def fitController (w : Nat) : Controller → Controller
  | .via b dd => if needsTpi w then .tpi TpiChip.afterReset else .via b dd
  | .tpi t => if needsVia w then .via ViaChip.afterReset ViaChip.afterReset else .tpi t

/-- `s` with the operation of tag `w` presented next, its operands zero. The operation addresses
drive 0, so drive 0 is given the variant the tag needs: on a drive of the other variant the tag
"names no operation" (R94, entry 18). -/
def State.withFetchWord (s : State) (nbits w : Nat) : State :=
  (s.mapDrive 0 fun dr => { dr with ctl := fitController w dr.ctl }).withRequests
    (requestOfWord nbits w :: s.requests)

end Sys2Proof.Machine
end

