-- ==== Sys2Proof/Machine/Window.lean ====
section
/-! DEFINITION. The drive CPU's accesses to the register window of a chip (R60 to R62): the operation
at a window offset, under the `VIA_OFFSETS` of the machine. -/

namespace Sys2Proof.Machine

/-- `RegRead(chip, off)` (R62): performs the read operation that stands at the offset under the
machine's own `VIA_OFFSETS`; "this rule only dispatches". -/
def State.windowRead (s : State) (d : Nat) (chip : ChipId) (off : Nat) : Out :=
  exec (regRead s.params.viaOffsets d chip off) s

/-- `RegWrite(chip, off, v)` (R62). -/
def State.windowWrite (s : State) (d : Nat) (chip : ChipId) (off : Nat) (v : Byte) : Out :=
  exec (regWrite s.params.viaOffsets d chip off v) s

end Sys2Proof.Machine
end

