-- ==== Sys2Proof/Safety.lean ====
section
/-! DEFINITION. What a sound state of the block is (the invariants the spec's rules name), and the
words the statements use to say what an operation leaves alone. -/

namespace Sys2Proof.Machine

/-! ### Invariants -/

/-- R163: each line value is the AND of every participant's latch of that line. -/
def BusConsistent (b : Bus) : Prop := ∀ l, b.line.get l = b.wiredAnd l

/-- R45, R275: the stored chip outputs are the functions of the state they stand for. -/
def Controller.IrqCurrent (P : Params) : Controller → Prop
  | .via b dd =>
    b.chipIrq = ((b.ca1Flag && (ctrlDecode P b.ct).ca1Enable) || b.otherIrq) ∧
      dd.chipIrq = ((dd.ca1Flag && (ctrlDecode P dd.ct).ca1Enable) || dd.otherIrq)
  | .tpi t => t.chipIrq = (bitAt t.cr P.tpiCr.mc && decide (t.air.extractLsb' 0 5 ≠ 0))

/-- R277: a chip that waits for the retry timer still requests. -/
def Controller.RetryRequests : Controller → Prop
  | .via b dd => (b.irqRetry = true → b.chipIrq = true) ∧ (dd.irqRetry = true → dd.chipIrq = true)
  | .tpi t => t.irqRetry = true → t.chipIrq = true

/-- R34: bits 7:5 of `air` are always 0. -/
def Controller.AirClean : Controller → Prop
  | .via _ _ => True
  | .tpi t => t.air.extractLsb' 5 3 = 0

/-- R264: the acknowledge line of a TPI rests at 1. -/
def Controller.AckIdle : Controller → Prop
  | .via _ _ => True
  | .tpi t => t.hsAck = true

/-- R28, R63, R139: the image bytes are in canonical form and inside the buffer, the table and
`max_track` are those of the format. -/
structure Image.Sound (P : Params) (im : Image) : Prop where
  canonical : Memory.wf im.bytes
  inside : ∀ x ∈ im.bytes, x.1 < im.len
  table : im.table = buildTable P im.format
  maxTrack : im.maxTrack = maxTrackOf P im.format

/-- R31 to R33, R35, R47: the head, the cursor and the sync detector. -/
structure Drive.MechSound (P : Params) (dr : Drive) : Prop where
  bufferLength : dr.buf.length = 365
  cursor : dr.mech.pos ≤ 364
  headLow : 2 ≤ dr.mech.ht
  headHigh : dr.mech.ht ≤ 2 * dr.maxTrack P
  sector : ∀ im, dr.img = some im → dr.mech.sector < sptOf P im.format dr.curTrack
  ffcount : dr.mech.ffcount ≤ 5
  sync : dr.mech.sync = decide (dr.mech.ffcount = 5)

/-- The rotation timer and the motor of a drive that is powered or not. -/
structure Mech.TimerSound (P : Params) (powered : Bool) (m : Mech) : Prop where
  /-- R190. -/
  armed : m.timerArmed = (powered && m.motor)
  /-- R48: the period is one of the four. -/
  period : ∃ z, m.timerPeriod = zonePeriodOf P z
  /-- R287: an armed timer runs with its zone's period. -/
  zone : m.timerArmed = true → m.timerPeriod = zonePeriodOf P m.zone
  /-- R292, R303: a drive that is not powered does not spin. -/
  off : powered = false → m.motor = false

/-- The invariants of one drive. -/
structure Drive.Sound (P : Params) (dr : Drive) : Prop where
  mech : dr.MechSound P
  image : ∀ im, dr.img = some im → im.Sound P
  timer : dr.mech.TimerSound P dr.powered
  /-- R45, R275. -/
  irqCurrent : dr.ctl.IrqCurrent P
  /-- R276. -/
  cpuIrq : dr.cpuIrq = dr.ctl.request
  /-- R276: "for a drive that is not powered cpu_irq = 0". -/
  off : dr.powered = false → dr.cpuIrq = false
  retry : dr.ctl.RetryRequests
  air : dr.ctl.AirClean
  /-- R264: "When drive d is not powered hs_ack = 1". -/
  ackOff : dr.powered = false → dr.ctl.AckIdle

/-- R6, R160: one or two drives, and one participant more than drives. -/
def State.ShapeOk (s : State) : Prop :=
  1 ≤ s.drives.length ∧ s.drives.length ≤ 2 ∧ s.bus.latches.length = s.drives.length + 1

/-- The invariant of the whole block. -/
structure State.Sound (s : State) : Prop where
  params : s.params.wf = true
  shape : s.ShapeOk
  bus : BusConsistent s.bus
  drives : ∀ dr ∈ s.drives, dr.Sound s.params
  /-- R50: the retry timer is armed exactly when a request of a powered drive waits. -/
  retry : s.retryArmed = s.drives.any fun dr => dr.powered && dr.ctl.anyRetry
  /-- R160: a participant whose drive is not powered keeps its latches released. -/
  offReleases : ∀ d dr, s.drives[d]? = some dr → dr.powered = false →
    s.bus.latches[d + 1]? = some Lines.released

/-! ### Where a drive stands -/

/-- Drive `d` is a powered VIA drive: the enabling condition of `43_controller_via.md`. -/
structure ViaAt (s : State) (d : Nat) (dr : Drive) (b dd : ViaChip) : Prop where
  present : s.drives[d]? = some dr
  powered : dr.powered = true
  chips : dr.ctl = .via b dd

/-- Drive `d` is a powered TPI drive: the enabling condition of `44_controller_tpi.md`. -/
structure TpiAt (s : State) (d : Nat) (dr : Drive) (c : TpiChip) : Prop where
  present : s.drives[d]? = some dr
  powered : dr.powered = true
  chip : dr.ctl = .tpi c

/-! ### What an operation leaves alone -/

/-- Every drive but `d` is as it was, and there are as many. -/
def SameOtherDrives (d : Nat) (s t : State) : Prop :=
  t.drives.length = s.drives.length ∧ ∀ e, e ≠ d → t.drives[e]? = s.drives[e]?

/-- The parameters, the pair, the presented operations and the free values are as they were. -/
structure SameFixed (s t : State) : Prop where
  params : t.params = s.params
  par : t.par = s.par
  requests : t.requests = s.requests
  draws : t.draws = s.draws

/-- Outside drive `d`, the retry timer and the outputs, nothing changed. -/
structure OnlyDrive (d : Nat) (s t : State) : Prop where
  fixed : SameFixed s t
  bus : t.bus = s.bus
  others : SameOtherDrives d s t

/-- Drive `d` became `dr'` and `r` was returned; nothing else changed. -/
structure DriveBecomes (d : Nat) (s t : State) (dr' : Drive) (r : Result) : Prop where
  only : OnlyDrive d s t
  drive : t.drives[d]? = some dr'
  events : t.events = s.events
  retry : t.retryArmed = s.retryArmed
  result : t.result = r

/-- Everything of a drive but its controller and `cpu_irq` is as it was. -/
structure SameMechanism (dr dr' : Drive) : Prop where
  devSel : dr'.devSel = dr.devSel
  powered : dr'.powered = dr.powered
  wp : dr'.wp = dr.wp
  img : dr'.img = dr.img
  buf : dr'.buf = dr.buf
  mech : dr'.mech = dr.mech

/-- Every register and flag of a VIA-style chip but its output and its retry flag is as it was. -/
structure ViaChip.SameRegs (c c' : ViaChip) : Prop where
  ora : c'.ora = c.ora
  orb : c'.orb = c.orb
  ddra : c'.ddra = c.ddra
  ddrb : c'.ddrb = c.ddrb
  ct : c'.ct = c.ct
  ca1Flag : c'.ca1Flag = c.ca1Flag
  otherIrq : c'.otherIrq = c.otherIrq

/-- Every register and flag of a TPI but its output and its retry flag is as it was. -/
structure TpiChip.SameRegs (t t' : TpiChip) : Prop where
  pra : t'.pra = t.pra
  prb : t'.prb = t.prb
  prc : t'.prc = t.prc
  ddra : t'.ddra = t.ddra
  ddrb : t'.ddrb = t.ddrb
  ddrc : t'.ddrc = t.ddrc
  cr : t'.cr = t.cr
  air : t'.air = t.air
  irqLevel : t'.irqLevel = t.irqLevel
  hsDav : t'.hsDav = t.hsDav
  hsAck : t'.hsAck = t.hsAck

/-- The registers of every chip of a controller are as they were, and so is the variant. -/
def Controller.SameRegs : Controller → Controller → Prop
  | .via b dd, .via b' dd' => b.SameRegs b' ∧ dd.SameRegs dd'
  | .tpi c, .tpi c' => c.SameRegs c'
  | _, _ => False

/-- The controller after `chip_reset` withdrew its requests (R301, R303): every register at its
reset value, but for `hs_dav`, which the host writes. -/
def Controller.cleared : Controller → Controller
  | .via _ _ => .via ViaChip.afterReset ViaChip.afterReset
  | .tpi c => .tpi { TpiChip.afterReset with hsDav := c.hsDav }

/-! ### What `IRQ.UPDATE` leaves (R277) -/

/-- R277: the interrupt outputs of drive `d` agree with its chips in `t`, a change of `cpu_irq`
has been emitted and nothing else, and the retry timer is armed exactly when a request of a powered
drive waits. -/
structure IrqSettled (d : Nat) (s t : State) (dr dr' : Drive) : Prop where
  current : dr'.ctl.IrqCurrent s.params
  cpuIrq : dr'.cpuIrq = dr'.ctl.request
  events : t.events = if dr'.cpuIrq = dr.cpuIrq then s.events else .cpuIrq d dr'.cpuIrq :: s.events
  retry : t.retryArmed = t.drives.any fun x => x.powered && x.ctl.anyRetry

/-- R277, one chip: `was` and `waits` before, `now` and the answer after. A request that rises while
the other chip requests waits for the retry timer; one that falls waits no more; else the flag
stands. -/
def retryAfter (was now waits other : Bool) : Bool :=
  if now = was then waits else if now then waits || other else false

/-- Drive `d` was a VIA drive with the chips `b1` and `dd1`, and `IRQ.UPDATE` followed (R277). -/
def ViaUpdated (d : Nat) (s t : State) (dr : Drive) (b1 dd1 : ViaChip) : Prop :=
  ∃ dr' b' dd', t.drives[d]? = some dr' ∧ dr'.ctl = .via b' dd' ∧ SameMechanism dr dr' ∧
    b1.SameRegs b' ∧ dd1.SameRegs dd' ∧
    b'.irqRetry = retryAfter b1.chipIrq b'.chipIrq b1.irqRetry dd1.chipIrq ∧
    dd'.irqRetry = retryAfter dd1.chipIrq dd'.chipIrq dd1.irqRetry b'.chipIrq ∧
    IrqSettled d s t dr dr' ∧ OnlyDrive d s t

/-- Drive `d` was a TPI drive with the chip `c1`, and `IRQ.UPDATE` followed (R277). -/
def TpiUpdated (d : Nat) (s t : State) (dr : Drive) (c1 : TpiChip) : Prop :=
  ∃ dr' c', t.drives[d]? = some dr' ∧ dr'.ctl = .tpi c' ∧ SameMechanism dr dr' ∧ c1.SameRegs c' ∧
    c'.irqRetry = retryAfter c1.chipIrq c'.chipIrq c1.irqRetry false ∧
    IrqSettled d s t dr dr' ∧ OnlyDrive d s t

/-! ### The bus as the participants hear it (R161, R165, R221) -/

/-- Participant `q` is notified: the host always, a drive while it is powered (R165). -/
def hears (s : State) (q : Nat) : Bool :=
  q == 0 || ((s.drives[q - 1]?).map fun dr => dr.powered).getD false

/-- One notification for every participant that hears, participant 0 first (newest event first). -/
def edgeEvents (s : State) (l : Line) (v : Bool) : List Event :=
  (((List.range s.bus.latches.length).filter (hears s)).map fun q => .busEdge q l v).reverse

/-- The notifications of what became of line `l` from `old` to `v`: none if it did not change. -/
def lineEvents (s : State) (l : Line) (old v : Bool) : List Event :=
  if v = old then [] else edgeEvents s l v

/-- The event is an edge notification. -/
def Event.isBusEdge : Event → Bool
  | .busEdge _ _ _ => true
  | _ => false

/-- The event is a change of the CPU interrupt input of drive `d`. -/
def Event.isCpuIrq (d : Nat) : Event → Bool
  | .cpuIrq e _ => e == d
  | _ => false

/-- R221: an edge of the bus chip's control input to line value `v` is active. -/
def activeAtn (P : Params) (b : ViaChip) (v : Bool) : Prop :=
  (P.busInvert ^^ v) = (ctrlDecode P b.ct).ca1Rising

/-- R165, R221: what a change of line `l` to `v` makes of a drive. Only an active ATN edge at a
powered VIA drive changes anything: the bus chip's flag, and the outputs recomputed from it. -/
def EdgeReaches (P : Params) (l : Line) (v : Bool) (dr dr' : Drive) : Prop :=
  match dr.ctl with
  | .tpi _ => dr' = dr
  | .via b dd =>
    (¬ (dr.powered = true ∧ l = .atn ∧ activeAtn P b v) → dr' = dr) ∧
    (dr.powered = true ∧ l = .atn ∧ activeAtn P b v →
      ∃ b' dd', dr'.ctl = .via b' dd' ∧ SameMechanism dr dr' ∧
        ViaChip.SameRegs { b with ca1Flag := true } b' ∧ dd.SameRegs dd' ∧
        dr'.ctl.IrqCurrent P ∧ dr'.cpuIrq = dr'.ctl.request ∧
        b'.irqRetry = retryAfter b.chipIrq b'.chipIrq b.irqRetry dd.chipIrq ∧
        dd'.irqRetry = retryAfter dd.chipIrq dd'.chipIrq dd.irqRetry b'.chipIrq)

/-- R216, R212: the value a bus chip puts out on the line wired to port B bit `j`. -/
def putsOut (P : Params) (b : ViaChip) (j : Fin 8) : Bool :=
  !bitAt b.ddrb j || (P.busInvert ^^ bitAt b.orb j)

/-! ### Bytes, sectors and buffers -/

/-- Bit `j` of `r` is the driven latch bit where the DDR is set, the pin else (R211). -/
def ReadsBack (r latch ddr : Byte) (pin : Fin 8 → Bool) : Prop :=
  ∀ j : Fin 8, bitAt r j = if bitAt ddr j then bitAt latch j else pin j

/-- The byte a list of (address, byte) pairs gives an address: the last pair's, else `0x00`. -/
def cellAt (cells : List Host.Cell) (a : Nat) : Byte :=
  ((cells.reverse.find? fun c => c.1 == a).map fun c => c.2).getD 0

/-- R135: the buffer of (track, sector) of a mounted image. -/
def sectorBuffer (P : Params) (im : Image) (track sector : Nat) : List Byte :=
  encodeSector P (BitVec.ofNat 8 track) (BitVec.ofNat 8 sector) im.id1 im.id2
    ((List.range 256).map fun i => im.read (im.table.getD (track - 1) 0 + sector * 256 + i))

/-- `n` bytes of a buffer from index `i`. -/
def slice (l : List Byte) (i n : Nat) : List Byte := (l.drop i).take n

/-- `GCR_TABLE[n]` (R96) as a byte, for the byte formulas of R97. -/
def codeByte (tbl : List Code) (n : Nibble) : Byte := (tbl.getD n.toNat 0).setWidth 8

/-- The XOR of all bytes of a list (R99). -/
def xorOf (l : List Byte) : Byte := l.foldr (fun x y => x ^^^ y) 0

/-- R187: the head position a phase write leads to. -/
def headAfter (maxTrack ht : Nat) (old new : Bits2) : Nat :=
  if new.toNat = (old.toNat + 1) % 4 then min (ht + 1) (2 * maxTrack)
  else if new.toNat = (old.toNat + 3) % 4 then max (ht - 1) 2
  else ht

/-- Every byte of every image reads as before (R64). -/
def SameImages (s t : State) : Prop :=
  ∀ (d : Nat) (dr dr' : Drive), s.drives[d]? = some dr → t.drives[d]? = some dr' →
    dr'.img = dr.img ∧ ∀ a, dr'.imgRead a = dr.imgRead a

/-! ### Runs -/

/-- Perform operations one after another, stopping at the first that has no step. -/
def execAll : List Sys2Proof.Instr → State → Out
  | [], s => .next s
  | i :: is, s =>
    match exec i s with
    | .next t => execAll is t
    | .fault f => .fault f
    | .refused r => .refused r

/-- Apply `f` to the next state of an outcome. -/
def mapOut (f : State → State) : Out → Out
  | .next t => .next (f t)
  | .fault e => .fault e
  | .refused r => .refused r

/-! ### Which operations do what -/

/-- The operation mounts or unmounts: the only ones that touch an image (R63, R28). -/
def touchesImage : Sys2Proof.Instr → Bool
  | .sysMount _ _ _ _ _ => true
  | .sysUnmount _ => true
  | _ => false

/-- The operation writes the stepper phase of drive `d` (R30 "a stepper write", R186, R220, R228). -/
def writesStepper (d : Nat) : Sys2Proof.Instr → Bool
  | .mechCtrl e _ => e == d
  | .mechStep e _ => e == d
  | .viadWrPb e _ => e == d
  | .viaWrDdrb e .viad _ => e == d
  | _ => false

/-- The operation places the head anew: a reset, or a mount of drive `d` (R30). -/
def placesHead (d : Nat) : Sys2Proof.Instr → Bool
  | .sysReset => true
  | .sysMount e _ _ _ _ => e == d
  | _ => false

/-- The drive an operation is addressed to, if it names one. -/
def addressedDrive : Sys2Proof.Instr → Option Nat
  | .viabRdPb d => some d
  | .viabRdPa d => some d
  | .viabWrPb d _ => some d
  | .viabWrPa d _ => some d
  | .viadRdPb d => some d
  | .viadRdPa d => some d
  | .viadWrPb d _ => some d
  | .viadWrPa d _ => some d
  | .viaRdDdrb d _ => some d
  | .viaRdDdra d _ => some d
  | .viaWrDdrb d _ _ => some d
  | .viaWrDdra d _ _ => some d
  | .viaRdCt d _ _ => some d
  | .viaWrCt d _ _ _ => some d
  | .tpiRdPa d => some d
  | .tpiRdPb d => some d
  | .tpiRdPc d => some d
  | .tpiRdDdra d => some d
  | .tpiRdDdrb d => some d
  | .tpiRdDdrc d => some d
  | .tpiRdCr d => some d
  | .tpiRdAir d => some d
  | .tpiWrPa d _ => some d
  | .tpiWrPb d _ => some d
  | .tpiWrPc d _ => some d
  | .tpiWrDdra d _ => some d
  | .tpiWrDdrb d _ => some d
  | .tpiWrDdrc d _ => some d
  | .tpiWrCr d _ => some d
  | .tpiWrAir d _ => some d
  | .sysReset => none
  | .sysPwron d => some d
  | .sysPwroff d => some d
  | .sysMount d _ _ _ _ => some d
  | .sysUnmount d => some d
  | .mechTick d => some d
  | .mechCtrl d _ => some d
  | .irqRetry => none
  | .busSet _ _ _ => none
  | .busGet _ => none
  | .parEnable _ => none
  | .parWrdata _ => none
  | .parRddata => none
  | .parWrack _ => none
  | .parRdack => none
  | .tpiIrqin d _ _ => some d
  | .tpiHostwr d _ => some d
  | .tpiHostrd d => some d
  | .viaOtherirq d _ _ => some d
  | .gcrEnc4 _ _ _ _ => none
  | .gcrDec5 _ => none
  | .gcrEncsec _ _ _ _ _ => none
  | .gcrDechdr _ => none
  | .gcrDecdata _ => none
  | .dskBuild _ => none
  | .dskOffset _ _ _ => none
  | .mechRegen d => some d
  | .mechStep d _ => some d
  | .busNotify _ _ _ => none
  | .irqUpdate d => some d

/-- The operation is addressed to drive `d` and has no step while the drive is off (R292, U15): every
such operation but those of the frontend that need no power (R192, R193, R302) and the host's read of
the acknowledge line (R264). -/
def needsPower (d : Nat) : Sys2Proof.Instr → Bool
  | .sysPwron _ => false
  | .sysPwroff e => e == d
  | .sysMount _ _ _ _ _ => false
  | .sysUnmount _ => false
  | .tpiHostrd _ => false
  | i => addressedDrive i == some d

/-- The operation takes drive `d` off or cancels its waiting requests (R280): reset, unmount,
power-off. -/
def detaches (d : Nat) : Sys2Proof.Instr → Bool
  | .sysReset => true
  | .sysUnmount e => e == d
  | .sysPwroff e => e == d
  | _ => false

/-- A waiting request of one of the chips of a controller (R50), and that chip's request (R45). -/
def Controller.waits : Controller → ChipId → Bool
  | .via b _, .viab => b.irqRetry
  | .via _ dd, .viad => dd.irqRetry
  | .tpi t, .tpi => t.irqRetry
  | _, _ => false

/-- The request a chip of a controller presents (R45). -/
def Controller.asks : Controller → ChipId → Bool
  | .via b _, .viab => b.chipIrq
  | .via _ dd, .viad => dd.chipIrq
  | .tpi t, .tpi => t.chipIrq
  | _, _ => false

/-- Another chip of the controller requests. -/
def Controller.otherAsks : Controller → ChipId → Bool
  | .via _ dd, .viab => dd.chipIrq
  | .via b _, .viad => b.chipIrq
  | _, _ => false

end Sys2Proof.Machine
end

