-- ==== Sys2Proof/Certificates/Slice0/Obligations.lean ====
section
/-! DEFINITION. The statements for the provers. Each docstring names the rules of `spec/` it
formalises. `exec` answers `.next t` for a completed operation; a refusal says that the operation
has no step (R10). -/

section
open Sys2Proof Sys2Proof.Machine

/-! ### Encodings (R90 to R95) -/

/-- R91, R92, R93: tags written out bit by bit from the format tables name the operations the
tables give them. -/
def Obligations.SampleTagsDecode : Prop :=
  decode { tag := 0b00000000, drive := 1 } = .ok (.viabRdPb 1) ∧
  decode { tag := 0b00011001, byte := 0x5A } = .ok (.viadWrPa 0 0x5A) ∧
  decode { tag := 0b00010010 } = .ok (.viaRdDdrb 0 .viad) ∧
  decode { tag := 0b00011110, byte := 0x77 } = .ok (.viaWrCt 0 .viad 2 0x77) ∧
  decode { tag := 0b00100111 } = .ok (.tpiRdAir 0) ∧
  decode { tag := 0b00101101, byte := 0x1F } = .ok (.tpiWrDdrc 0 0x1F) ∧
  decode { tag := 0b10000000 } = .ok .sysReset ∧
  decode { tag := 0b10000101, drive := 1 } = .ok (.mechTick 1) ∧
  decode { tag := 0b10001000, participant := 2, line := 1, level := true } = .ok (.busSet 2 .clock true) ∧
  decode { tag := 0b11000000, data := [1, 2, 3, 4] } = .ok (.gcrEnc4 1 2 3 4) ∧
  decode { tag := 0b11001000, byte := 0b11 } = .ok (.mechStep 0 0b11) ∧
  decode { tag := 0b11001010, drive := 1 } = .ok (.irqUpdate 1)

/-- R90 to R93: decoding the request that names a well-formed operation gives that operation back,
with every operand. -/
def Obligations.DecodeOfEncode : Prop := ∀ i : Instr, i.wf = true → decode (encode i) = .ok i

/-- R94: the reserved tags, and they alone, name no operation, whatever operands come beside them;
and a window access to a chip the drive's variant does not have, under any `VIA_OFFSETS`, is refused
when it is performed. That such an access is refused by `exec` and not by the decoder is the model's
choice: log entry 19 (DEDUCED); the tag does not carry the drive's variant. -/
def Obligations.ReservedAndForeignTagsRefused : Prop :=
  (∀ r : Request, decode r = .error (.reservedTag r.tag) ↔
    (0x30 ≤ r.tag.toNat ∧ r.tag.toNat ≤ 0x3F) ∨ (0x40 ≤ r.tag.toNat ∧ r.tag.toNat ≤ 0x7F) ∨
      (0x93 ≤ r.tag.toNat ∧ r.tag.toNat ≤ 0xBF) ∨ (0xCB ≤ r.tag.toNat ∧ r.tag.toNat ≤ 0xFF)) ∧
  (∀ (s : State) (r : Request) (rest : List Request), s.requests = r :: rest →
    decode r = .error (.reservedTag r.tag) → step s = .refused (.reservedTag r.tag)) ∧
  (∀ (s : State) (o : ViaOffsets) (d off : Nat) (v : Byte) (dr : Drive) (b dd : ViaChip),
    s.drives[d]? = some dr → dr.ctl = .via b dd →
      exec (regRead o d .tpi off) s = .refused (.noSuchChip d) ∧
      exec (regWrite o d .tpi off v) s = .refused (.noSuchChip d)) ∧
  (∀ (s : State) (o : ViaOffsets) (d off : Nat) (v : Byte) (dr : Drive) (c : TpiChip),
    s.drives[d]? = some dr → dr.ctl = .tpi c →
      exec (regRead o d .viab off) s = .refused (.noSuchChip d) ∧
      exec (regWrite o d .viab off v) s = .refused (.noSuchChip d) ∧
      exec (regRead o d .viad off) s = .refused (.noSuchChip d) ∧
      exec (regWrite o d .viad off v) s = .refused (.noSuchChip d))

/-- R61, R62: the register maps of the chip windows at the default `VIA_OFFSETS` (the spec's table);
that a machine's window has port B, port A, DDRB and DDRA where its own `VIA_OFFSETS` puts them; and
that the offset is taken modulo 8. Where `CT0` to `CT3` stand under other offsets, namely on the
offsets that are left, in ascending order, is the model's choice: log entry 21 (DESIGN CHOICE). -/
def Obligations.RegisterWindowMap : Prop :=
  (∀ d v, let o := defaultViaOffsets
    (List.range 8).map (regRead o d .viab) = [.viabRdPb d, .viabRdPa d, .viaRdDdrb d .viab,
      .viaRdDdra d .viab, .viaRdCt d .viab 0, .viaRdCt d .viab 1, .viaRdCt d .viab 2, .viaRdCt d .viab 3] ∧
    (List.range 8).map (regRead o d .viad) = [.viadRdPb d, .viadRdPa d, .viaRdDdrb d .viad,
      .viaRdDdra d .viad, .viaRdCt d .viad 0, .viaRdCt d .viad 1, .viaRdCt d .viad 2, .viaRdCt d .viad 3] ∧
    (List.range 8).map (fun n => regWrite o d .viab n v) = [.viabWrPb d v, .viabWrPa d v,
      .viaWrDdrb d .viab v, .viaWrDdra d .viab v, .viaWrCt d .viab 0 v, .viaWrCt d .viab 1 v,
      .viaWrCt d .viab 2 v, .viaWrCt d .viab 3 v] ∧
    (List.range 8).map (fun n => regWrite o d .viad n v) = [.viadWrPb d v, .viadWrPa d v,
      .viaWrDdrb d .viad v, .viaWrDdra d .viad v, .viaWrCt d .viad 0 v, .viaWrCt d .viad 1 v,
      .viaWrCt d .viad 2 v, .viaWrCt d .viad 3 v]) ∧
  (∀ o d v, (List.range 8).map (regRead o d .tpi) = [.tpiRdPa d, .tpiRdPb d, .tpiRdPc d, .tpiRdDdra d,
      .tpiRdDdrb d, .tpiRdDdrc d, .tpiRdCr d, .tpiRdAir d] ∧
    (List.range 8).map (fun n => regWrite o d .tpi n v) = [.tpiWrPa d v, .tpiWrPb d v, .tpiWrPc d v,
      .tpiWrDdra d v, .tpiWrDdrb d v, .tpiWrDdrc d v, .tpiWrCr d v, .tpiWrAir d v]) ∧
  (∀ (s : State) (d : Nat) (v : Byte), s.params.viaOffsets.wf = true →
    let o := s.params.viaOffsets
    s.windowRead d .viab o.pb = exec (.viabRdPb d) s ∧
    s.windowRead d .viab o.pa = exec (.viabRdPa d) s ∧
    s.windowRead d .viad o.pb = exec (.viadRdPb d) s ∧
    s.windowRead d .viad o.pa = exec (.viadRdPa d) s ∧
    s.windowWrite d .viab o.pb v = exec (.viabWrPb d v) s ∧
    s.windowWrite d .viab o.pa v = exec (.viabWrPa d v) s ∧
    s.windowWrite d .viad o.pb v = exec (.viadWrPb d v) s ∧
    s.windowWrite d .viad o.pa v = exec (.viadWrPa d v) s ∧
    (∀ c : ViaId, s.windowRead d c.chip o.ddrb = exec (.viaRdDdrb d c) s ∧
      s.windowRead d c.chip o.ddra = exec (.viaRdDdra d c) s ∧
      s.windowWrite d c.chip o.ddrb v = exec (.viaWrDdrb d c v) s ∧
      s.windowWrite d c.chip o.ddra v = exec (.viaWrDdra d c v) s ∧
      ∀ (k : Fin 4) (n : Fin 8), o.named n = false →
        (((List.range n).filter fun m => !o.named (Fin.ofNat 8 m)).length = k) →
          s.windowRead d c.chip n = exec (.viaRdCt d c k) s ∧
          s.windowWrite d c.chip n v = exec (.viaWrCt d c k v) s)) ∧
  (∀ o d chip off v, regRead o d chip (off + 8) = regRead o d chip off ∧
    regWrite o d chip (off + 8) v = regWrite o d chip off v)

/-! ### One step, and the machine as a whole -/

/-- R8, R292: a step performs the operation the next request names, and takes the request off the
list; for the CPU of a drive this needs the drive to be powered, and the CPU of a drive that is off,
or that the machine does not have, has no step whatever the operation is. With nothing presented
there is no step. The request list and its agent field are the model's own (entries 1 and 25). -/
def Obligations.StepRunsDecodedOperation : Prop :=
  (∀ (s : State) (r : Request) (rest : List Request) (i : Instr),
    s.requests = r :: rest → decode r = .ok i →
    ((∀ d, r.agent = .driveCpu d → ∃ dr, s.drives[d]? = some dr ∧ dr.powered = true) →
      step s = exec i { s with requests := rest }) ∧
    (∀ d, r.agent = .driveCpu d → s.drives[d]? = none → step s = .refused (.noSuchDrive d)) ∧
    (∀ d dr, r.agent = .driveCpu d → s.drives[d]? = some dr → dr.powered = false →
      step s = .refused (.drivePoweredOff d))) ∧
  (∀ s : State, s.requests = [] → step s = .refused .noOperation)

/-- R306: the state at construction is as after `SYS.RESET`, with every drive powered, without an
image, not protected, and every buffer byte zero. The parameters are the defaults and the timer
period is the model's choice (entries 2, 3, 12, 13). -/
def Obligations.ResetIsAsAfterSysReset : Prop :=
  exec .sysReset State.reset = .next State.reset ∧
  ∀ dr ∈ State.reset.drives, dr.powered = true ∧ dr.img = none ∧ dr.wp = false ∧
    dr.buf = List.replicate 365 0

/-- The machine right after reset meets the invariant of the block (its timer period is the model's
choice, entry 3). -/
def Obligations.ResetIsSound : Prop := State.reset.Sound

/-- Every step keeps the invariant of the block: R31 (head clamped), R32, R33, R34, R45 and R275
(stored chip outputs current), R48, R50 (retry timer), R51 and R163 (bus), R190 (rotation timer),
R276 (CPU interrupt input), R292 (power), and the canonical form of the image memory. -/
def Obligations.EveryStepKeepsSound : Prop :=
  ∀ s t : State, s.Sound → step s = .next t → t.Sound

/-- R163: after every operation each line is the AND of the participants' latches. -/
def Obligations.EveryOperationKeepsBusConsistent : Prop :=
  ∀ (i : Instr) (s t : State), BusConsistent s.bus → exec i s = .next t → BusConsistent t.bus

/-- R30: only a tick (and a reset or a mount) moves the cursor, a tick by exactly one with the wrap
from 364; only a stepper write (and a reset, a mount, the clamp of an unmount) moves the head; no
other operation changes the sector index. -/
def Obligations.WhatMovesTheHead : Prop :=
  ∀ (i : Instr) (s t : State) (d : Nat) (dr dr' : Drive), exec i s = .next t →
    s.drives[d]? = some dr → t.drives[d]? = some dr' →
    (i = .mechTick d → dr'.mech.pos = (if dr.mech.pos < 364 then dr.mech.pos + 1 else 0)) ∧
    (i ≠ .mechTick d → placesHead d i = false → dr'.mech.pos = dr.mech.pos) ∧
    (writesStepper d i = false → placesHead d i = false → i ≠ .sysUnmount d →
      dr'.mech.ht = dr.mech.ht) ∧
    (i ≠ .mechTick d → writesStepper d i = false → placesHead d i = false →
      dr'.mech.sector = dr.mech.sector)

/-- R63, R64, R28: no operation but a mount or an unmount changes an image, its table or its ID. -/
def Obligations.ImagesAreReadOnly : Prop :=
  ∀ (i : Instr) (s t : State), touchesImage i = false → exec i s = .next t → SameImages s t

/-- R3, R6, R49, R196: the parameters, the number of drives and participants, the device-select
jumpers and the variant never change; power only by `SYS.PWRON` and `SYS.PWROFF`; write protect only
by a mount or an unmount. An operation leaves the other presented operations alone. -/
def Obligations.WhatIsFixedForLife : Prop :=
  ∀ (i : Instr) (s t : State), exec i s = .next t →
    t.params = s.params ∧ t.requests = s.requests ∧
    t.bus.latches.length = s.bus.latches.length ∧ t.drives.length = s.drives.length ∧
    ∀ (d : Nat) (dr dr' : Drive), s.drives[d]? = some dr → t.drives[d]? = some dr' →
      dr'.devSel = dr.devSel ∧
      ((∃ b dd, dr'.ctl = .via b dd) ↔ ∃ b dd, dr.ctl = .via b dd) ∧
      (i ≠ .sysPwron d → i ≠ .sysPwroff d → dr'.powered = dr.powered) ∧
      (touchesImage i = false → dr'.wp = dr.wp)

/-- R79, R286: an operation addressed to one drive reaches the others only through an edge of the
ATN line. Only drive `d`'s CPU has drive `d`'s register accesses among its moves, only the host
`BUS.SET` with `p = 0`. By the moves of the outside agents other than the frontend, which resets and
powers off, the host's latches change only by the host, a drive's latches only by its own CPU's write
of port B or DDRB of its own bus chip, and a drive's ATN latch never. Presented operations that lie
in the domains of their agents still do after every step. -/
def Obligations.DrivesAreIsolated : Prop :=
  (∀ (i : Instr) (s t : State) (d e : Nat) (dr : Drive), s.ShapeOk → exec i s = .next t →
    addressedDrive i = some d → e ≠ d → s.drives[e]? = some dr →
    ∃ dr', t.drives[e]? = some dr' ∧
      (t.bus.line.atn = s.bus.line.atn → dr' = dr) ∧
      (t.bus.line.atn ≠ s.bus.line.atn → EdgeReaches s.params .atn t.bus.line.atn dr dr')) ∧
  (∀ (s : State) (a : Agent) (o : ViaOffsets) (d : Nat) (c : ChipId) (off : Nat) (l : Line) (v : Byte)
    (x : Bool),
    (s.performs a (regRead o d c off) = true → a = .driveCpu d) ∧
    (s.performs a (regWrite o d c off v) = true → a = .driveCpu d) ∧
    (s.performs a (.busSet 0 l x) = true → a = .host)) ∧
  (∀ (s t : State) (a : Agent) (i : Instr), s.performs a i = true → a ≠ .invoked → a ≠ .frontend →
    exec i s = .next t →
    (t.bus.latches[0]? ≠ s.bus.latches[0]? → a = .host) ∧
    ∀ d, (t.bus.latches[d + 1]?).map Lines.atn = (s.bus.latches[d + 1]?).map Lines.atn ∧
      (t.bus.latches[d + 1]? ≠ s.bus.latches[d + 1]? → a = .driveCpu d ∧ s.hasVia d = true ∧
        ∃ v, i = .viabWrPb d v ∨ i = .viaWrDdrb d .viab v)) ∧
  (∀ s t : State, s.Wired → step s = .next t → t.Wired)

/-- R195: exactly one ready pulse of drive `d` for a tick of drive `d`, none for anything else. -/
def Obligations.OneReadyPulsePerTick : Prop :=
  ∀ (i : Instr) (s t : State) (d : Nat), exec i s = .next t →
    t.events.count (.readyPulse d) =
      s.events.count (.readyPulse d) + if i = .mechTick d then 1 else 0

/-- R292, U15: while a drive is off no operation addressed to it has a step, but for mount, unmount,
power-on and the host's read of the acknowledge line (entries 16 and 23, DEDUCED). That `BUS.SET` by
its participant has none either is DEDUCED (entry 14). -/
def Obligations.NothingRunsWhileOff : Prop :=
  ∀ (s : State) (d : Nat) (dr : Drive), s.Sound → s.drives[d]? = some dr → dr.powered = false →
    (∀ i : Instr, needsPower d i = true →
      exec i s = .refused (.drivePoweredOff d) ∨ exec i s = .refused (.noSuchChip d) ∨
        exec i s = .refused (.timerDisarmed d)) ∧
    ∀ l v, exec (.busSet (d + 1) l v) s = .refused (.drivePoweredOff d)

/-- R303, scenario D: after a power-off, and whatever else happens, the drive's byte tick does not
fire again and no further ready pulse is seen, until the drive is powered on. -/
def Obligations.NoTickAfterPowerOff : Prop :=
  ∀ (s t u : State) (d : Nat) (ops : List Instr), exec (.sysPwroff d) s = .next t →
    Instr.sysPwron d ∉ ops → execAll ops t = .next u →
    exec (.mechTick d) u = .refused (.timerDisarmed d) ∧
      u.events.count (.readyPulse d) = t.events.count (.readyPulse d)

/-- R291: a waiting interrupt request is never dropped while its chip still requests: it stays,
unless the drive is detached, powered off or reset, or the retry timer fires with the other chip
silent. -/
def Obligations.WaitingRequestNeverDropped : Prop :=
  ∀ (i : Instr) (s t : State) (d : Nat) (dr dr' : Drive) (c : ChipId), exec i s = .next t →
    s.drives[d]? = some dr → t.drives[d]? = some dr' → dr.ctl.waits c = true →
    dr'.ctl.asks c = true → detaches d i = false → (i = .irqRetry → dr.ctl.otherAsks c = true) →
    dr'.ctl.waits c = true

/-! ### The codec (R96 to R101, R130 to R144) -/

/-- R97: the five bytes of a group, by the byte formulas of the rule, for any code table. -/
def Obligations.GroupPacking : Prop :=
  ∀ (s : State) (a b c e : Byte),
    let g := fun n => codeByte s.params.gcrTable n
    let g0 := g (a.extractLsb' 4 4)
    let g1 := g (a.extractLsb' 0 4)
    let g2 := g (b.extractLsb' 4 4)
    let g3 := g (b.extractLsb' 0 4)
    let g4 := g (c.extractLsb' 4 4)
    let g5 := g (c.extractLsb' 0 4)
    let g6 := g (e.extractLsb' 4 4)
    let g7 := g (e.extractLsb' 0 4)
    exec (.gcrEnc4 a b c e) s = .next (s.returns (.bytes
      [(g0 <<< 3) ||| (g1 >>> 2),
       ((g1 &&& 0x03) <<< 6) ||| (g2 <<< 1) ||| (g3 >>> 4),
       ((g3 &&& 0x0F) <<< 4) ||| (g4 >>> 1),
       ((g4 &&& 0x01) <<< 7) ||| (g5 <<< 2) ||| (g6 >>> 3),
       ((g6 &&& 0x07) <<< 5) ||| g7]))

/-- R132: a group decodes to the four bytes that encode to it, and is `invalid` exactly when one of
its eight codes is not in the table. -/
def Obligations.GroupDecoding : Prop :=
  ∀ (s : State) (x0 x1 x2 x3 x4 : Byte), s.params.wf = true →
    let G : BitVec 40 := x0 ++ x1 ++ x2 ++ x3 ++ x4
    let bad := ∃ i : Fin 8, G.extractLsb' (35 - 5 * i.val) 5 ∉ s.params.gcrTable
    ∃ r, exec (.gcrDec5 [x0, x1, x2, x3, x4]) s = .next (s.returns r) ∧ (bad ↔ r = .invalid) ∧
      (¬ bad → ∃ a b c e, r = .bytes [a, b, c, e] ∧
        encode4to5 s.params.gcrTable a b c e = [x0, x1, x2, x3, x4])

/-- R100, R99, R133: the 365 bytes of a sector buffer, slice by slice. -/
def Obligations.SectorBufferLayout : Prop :=
  ∀ (s : State) (track sector id1 id2 : Byte) (data : List Byte), s.params.wf = true →
    data.length = 256 →
    let enc := encode4to5 s.params.gcrTable
    let x := fun n => data.getD n 0
    ∃ out, exec (.gcrEncsec track sector id1 id2 data) s = .next (s.returns (.bytes out)) ∧
      out.length = 365 ∧
      slice out 0 5 = List.replicate 5 0xFF ∧
      slice out 5 5 = enc 0x08 (sector ^^^ track ^^^ id1 ^^^ id2) sector track ∧
      slice out 10 5 = enc id1 id2 0x0F 0x0F ∧
      slice out 15 5 = s.params.gapGroup ∧ slice out 20 5 = s.params.gapGroup ∧
      slice out 25 5 = List.replicate 5 0xFF ∧
      slice out 30 5 = enc 0x07 (x 0) (x 1) (x 2) ∧
      (∀ k, 1 ≤ k → k ≤ 63 →
        slice out (30 + 5 * k) 5 = enc (x (4 * k - 1)) (x (4 * k)) (x (4 * k + 1)) (x (4 * k + 2))) ∧
      slice out 350 5 = enc (x 255) (xorOf data) 0x00 0x00 ∧
      slice out 355 5 = s.params.gapGroup ∧ slice out 360 5 = s.params.gapGroup

/-- R143: the round trip, for every injective table: the header, the data block and a group decode
to what was encoded, and both checksums hold. -/
def Obligations.SectorRoundTrip : Prop :=
  ∀ (s : State) (track sector id1 id2 : Byte) (data : List Byte), s.params.wf = true →
    data.length = 256 →
    let out := encodeSector s.params track sector id1 id2 data
    exec (.gcrEncsec track sector id1 id2 data) s = .next (s.returns (.bytes out)) ∧
    exec (.gcrDechdr (slice out 5 10)) s = .next (s.returns (.header
      ⟨0x08, sector ^^^ track ^^^ id1 ^^^ id2, sector, track, id1, id2, 0x0F, 0x0F⟩ true)) ∧
    exec (.gcrDecdata (slice out 30 325)) s = .next (s.returns (.data data (xorOf data) true)) ∧
    ∀ a b c e, exec (.gcrDec5 (encode4to5 s.params.gcrTable a b c e)) s =
      .next (s.returns (.bytes [a, b, c, e]))

/-- R137: ten bytes decode to the eight fields that encode to them, with `header_ok` as the rule
says, and are `invalid` when no fields encode to them. -/
def Obligations.HeaderDecoding : Prop :=
  ∀ (s : State) (g : List Byte), s.params.wf = true → g.length = 10 →
    let encodes := fun h : Header =>
      encode4to5 s.params.gcrTable h.mark h.chk h.sector h.track ++
        encode4to5 s.params.gcrTable h.id1 h.id2 h.pad1 h.pad2 = g
    ∃ r, exec (.gcrDechdr g) s = .next (s.returns r) ∧
      (∀ h, encodes h → r = .header h
        (decide (h.mark = 0x08 ∧ h.chk = h.sector ^^^ h.track ^^^ h.id1 ^^^ h.id2))) ∧
      ((∀ h, ¬ encodes h) → r = .invalid)

/-- R138: 325 bytes decode to the 260 bytes that encode to them, with `data_ok` as the rule says,
and are `invalid` when no bytes encode to them. -/
def Obligations.DataDecoding : Prop :=
  ∀ (s : State) (g : List Byte), s.params.wf = true → g.length = 325 →
    let encodes := fun blk : List Byte =>
      blk.length = 260 ∧ ∀ k, k < 65 → slice g (5 * k) 5 = encode4to5 s.params.gcrTable
        (blk.getD (4 * k) 0) (blk.getD (4 * k + 1) 0) (blk.getD (4 * k + 2) 0) (blk.getD (4 * k + 3) 0)
    ∃ r, exec (.gcrDecdata g) s = .next (s.returns r) ∧
      (∀ blk, encodes blk → r = .data (slice blk 1 256) (blk.getD 257 0)
        (decide (blk.getD 0 0 = 0x07 ∧ blk.getD 257 0 = xorOf (slice blk 1 256)))) ∧
      ((∀ blk, ¬ encodes blk) → r = .invalid)

/-- R185: with the default table no five consecutive bytes inside a header or a data block are all
`0xFF`. -/
def Obligations.NoSyncInsideBlocks : Prop :=
  ∀ (P : Params) (track sector id1 id2 : Byte) (data : List Byte) (k : Nat),
    P.wf = true → P.gcrTable = defaultGcrTable → data.length = 256 →
    (5 ≤ k ∧ k + 5 ≤ 15) ∨ (30 ≤ k ∧ k + 5 ≤ 355) →
    slice (encodeSector P track sector id1 id2 data) k 5 ≠ List.replicate 5 0xFF

/-- R184, R310: over one sector buffer, ticks assert `sync` exactly on arriving at index 4 and at
index 29; where byte 0 was not arrived at by a tick (`ffcount` 0), at index 29 only. -/
def Obligations.SyncAtBlockStarts : Prop :=
  ∀ (s : State) (d : Nat) (dr : Drive) (track sector id1 id2 : Byte) (data : List Byte) (n : Nat),
    s.params.wf = true → s.params.gcrTable = defaultGcrTable → data.length = 256 →
    s.drives[d]? = some dr → dr.mech.timerArmed = true →
    dr.buf = encodeSector s.params track sector id1 id2 data →
    dr.mech.pos = 0 → dr.mech.ffcount ≤ 1 → dr.mech.sync = false → n ≤ 364 →
    ∃ t dr', execAll (List.replicate n (.mechTick d)) s = .next t ∧ t.drives[d]? = some dr' ∧
      dr'.buf = dr.buf ∧ dr'.mech.pos = n ∧
      dr'.mech.sync = decide ((n = 4 ∧ dr.mech.ffcount = 1) ∨ n = 29)

/-! ### Disk addressing (R104, R139 to R142) -/

/-- R104: the sector counts of the six formats and the image sizes. -/
def Obligations.DefaultFormats : Prop :=
  let d64 := List.replicate 17 21 ++ List.replicate 7 19 ++ List.replicate 6 18 ++ List.replicate 5 17
  let d80 := List.replicate 39 29 ++ List.replicate 14 27 ++ List.replicate 11 25 ++ List.replicate 13 23
  let counts := fun f => FormatInfo.counts (defaultFormats.get f)
  let size := fun f => (buildTable defaultParams f).getLast?
  counts .d64 = d64 ∧ counts .d64x40 = d64 ++ List.replicate 5 17 ∧ counts .d71 = d64 ++ d64 ∧
  counts .d81 = List.replicate 80 40 ∧ counts .d80 = d80 ∧ counts .d82 = d80 ++ d80 ∧
  size .d64 = some 174848 ∧ size .d64x40 = some 196608 ∧ size .d71 = some 349696 ∧
  size .d81 = some 819200 ∧ size .d80 = some 533248 ∧ size .d82 = some 1066496

/-- R139: the offset table of a format. -/
def Obligations.OffsetTable : Prop :=
  ∀ (s : State) (f : Format), ∃ table, exec (.dskBuild f) s = .next (s.returns (.table table)) ∧
    table.length = maxTrackOf s.params f + 1 ∧ table.getD 0 0 = 0 ∧
    ∀ t, 1 ≤ t → t ≤ maxTrackOf s.params f →
      table.getD t 0 = table.getD (t - 1) 0 + 256 * sptOf s.params f t

/-- R140, R141: the address of a coordinate; a track the table does not have is refused. -/
def Obligations.OffsetOfCoordinate : Prop :=
  ∀ (s : State) (table : List Nat) (track sector : Nat),
    (1 ≤ track → track < table.length → exec (.dskOffset table track sector) s =
      .next (s.returns (.address (table.getD (track - 1) 0 + sector * 256)))) ∧
    (track < 1 ∨ table.length ≤ track →
      exec (.dskOffset table track sector) s = .refused (.trackOutOfRange track))

/-- R142, R69: over the valid coordinates of a format the addresses are multiples of 256, strictly
increasing in lexicographic order, and consecutive ones differ by exactly 256. -/
def Obligations.OffsetsIncrease : Prop :=
  ∀ (P : Params) (f : Format), P.wf = true →
    let table := buildTable P f
    let valid := fun t s => 1 ≤ t ∧ t ≤ maxTrackOf P f ∧ s < sptOf P f t
    (∀ t s, valid t s → ∃ a, offset? table t s = some a ∧ a % 256 = 0) ∧
    (∀ t s t' s' a a', valid t s → valid t' s' → t < t' ∨ (t = t' ∧ s < s') →
      offset? table t s = some a → offset? table t' s' = some a' → a < a') ∧
    (∀ t s a, valid t s → offset? table t s = some a →
      (s + 1 < sptOf P f t → offset? table t (s + 1) = some (a + 256)) ∧
      (s + 1 = sptOf P f t → t + 1 ≤ maxTrackOf P f → offset? table (t + 1) 0 = some (a + 256)))

/-! ### The mechanism (R135, R136, R180 to R197) -/

/-- R135, R136: regeneration encodes the current sector into the buffer and touches nothing else;
with no image it changes nothing. A drive that is off has no such step (U15, entry 9). -/
def Obligations.RegenerateResult : Prop :=
  ∀ (s : State) (d : Nat) (dr : Drive), s.Sound → s.drives[d]? = some dr →
    (dr.powered = false → exec (.mechRegen d) s = .refused (.drivePoweredOff d)) ∧
    (dr.powered = true → ∃ t, exec (.mechRegen d) s = .next t ∧ DriveBecomes d s t
      (match dr.img with
        | none => dr
        | some im => { dr with buf := sectorBuffer s.params im (dr.mech.ht / 2) dr.mech.sector }) .none)

/-- R187, R188: a phase write stores the phase and moves the head by half a track, clamped; a
change of whole track reduces the sector index and regenerates the buffer. A drive that is off has no
such step (U15, entry 9). -/
def Obligations.StepResult : Prop :=
  ∀ (s : State) (d : Nat) (dr : Drive) (new : Bits2), s.Sound → s.drives[d]? = some dr →
    let P := s.params
    let ht := headAfter (dr.maxTrack P) dr.mech.ht dr.mech.phase new
    let moved : Drive := { dr with mech := { dr.mech with phase := new, ht := ht } }
    (dr.powered = false → exec (.mechStep d new) s = .refused (.drivePoweredOff d)) ∧
    (dr.powered = true → ∃ t, exec (.mechStep d new) s = .next t ∧ DriveBecomes d s t
      (if ht / 2 = dr.mech.ht / 2 then moved
       else match dr.img with
        | none => moved
        | some im =>
          let sector := dr.mech.sector % sptOf P im.format (ht / 2)
          { moved with mech := { moved.mech with sector := sector }
                       buf := sectorBuffer P im (ht / 2) sector }) .none)

/-- R194: `n` forward transitions move the head by `n` half-tracks up to the clamp, `n` backward
ones down to track 1; an illegal transition leaves it where it was. The drive is powered: one that
is off does not step (U15 and entry 9, `StepResult`). -/
def Obligations.StepperLaw : Prop :=
  ∀ (s : State) (d : Nat) (dr : Drive) (n : Nat), s.Sound → s.drives[d]? = some dr →
    dr.powered = true →
    (∃ t dr', execAll ((List.range n).map fun k => .mechStep d (dr.mech.phase + BitVec.ofNat 2 (k + 1))) s
        = .next t ∧ t.drives[d]? = some dr' ∧
      dr'.mech.ht = min (dr.mech.ht + n) (2 * dr.maxTrack s.params)) ∧
    (∃ t dr', execAll ((List.range n).map fun k => .mechStep d (dr.mech.phase - BitVec.ofNat 2 (k + 1))) s
        = .next t ∧ t.drives[d]? = some dr' ∧ dr'.mech.ht = max (dr.mech.ht - n) 2) ∧
    (∀ new, new = dr.mech.phase ∨ new = dr.mech.phase + 2 →
      ∃ t dr', exec (.mechStep d new) s = .next t ∧ t.drives[d]? = some dr' ∧
        dr'.mech.ht = dr.mech.ht)

/-- R186, R189, R102: the control byte steps the head by its bits 1:0, then sets motor (bit 2) and
zone (bits 6:5), re-arming or disarming the rotation timer when either changed; writing the same
byte twice does nothing the second time. -/
def Obligations.ControlByteResult : Prop :=
  ∀ (s : State) (d : Nat) (dr : Drive) (c : Byte), s.drives[d]? = some dr → dr.powered = true →
    s.params.pinmapViad = defaultPinmapViad →
    ∃ u du t, exec (.mechStep d (c.extractLsb' 0 2)) s = .next u ∧ u.drives[d]? = some du ∧
      exec (.mechCtrl d c) s = .next t ∧ exec (.mechCtrl d c) t = .next t ∧
      let motor := c.getLsbD 2
      let zone := c.extractLsb' 5 2
      DriveBecomes d s t
        (if motor = dr.mech.motor ∧ zone = dr.mech.zone then du
         else if motor = true then
          { du with mech := { du.mech with
              motor := true, zone := zone, timerArmed := true,
              timerPeriod := match zone.toNat with
                | 0 => s.params.zonePeriod.z0
                | 1 => s.params.zonePeriod.z1
                | 2 => s.params.zonePeriod.z2
                | _ => s.params.zonePeriod.z3 } }
         else { du with mech := { du.mech with motor := false, zone := zone, timerArmed := false } })
        .none

/-- R182, R183, R184, R195, R222: a tick advances the cursor (at the end of the buffer the sector,
with a new buffer), looks at the byte now under the head for sync, and gives the ready pulse, which
in a VIA drive sets the disk chip's flag. With the timer disarmed there is no tick. -/
def Obligations.TickResult : Prop :=
  ∀ (s : State) (d : Nat) (dr : Drive), s.Sound → s.drives[d]? = some dr →
    let P := s.params
    let m := dr.mech
    let next := fun im : Image => (m.sector + 1) % sptOf P im.format (m.ht / 2)
    let dr1 : Drive :=
      if m.pos < 364 then { dr with mech := { m with pos := m.pos + 1 } }
      else match dr.img with
        | none => { dr with mech := { m with pos := 0 } }
        | some im => { dr with buf := sectorBuffer P im (m.ht / 2) (next im)
                               mech := { m with pos := 0, sector := next im } }
    let n := if dr1.buf.getD dr1.mech.pos 0 = 0xFF then min (m.ffcount + 1) 5 else 0
    let dr2 : Drive := { dr1 with mech := { dr1.mech with ffcount := n, sync := decide (n = 5) } }
    let s2 : State := { s with events := .readyPulse d :: s.events }
    (m.timerArmed = true → ∃ t, exec (.mechTick d) s = .next t ∧ t.result = .none ∧
      (∀ b dd, dr.ctl = .via b dd → ViaUpdated d s2 t dr2 b { dd with ca1Flag := true }) ∧
      (∀ c, dr.ctl = .tpi c → DriveBecomes d s2 t dr2 .none)) ∧
    (m.timerArmed = false → exec (.mechTick d) s = .refused (.timerDisarmed d))

/-! ### Mount, unmount, power and reset (R192, R193, R300 to R303) -/

/-- R192, R144, R63, R64: mounting hands over the bytes (missing ones reading zero), builds the
table, reads the DiskID, clamps the head, restarts at sector 0, byte 0 and fills the buffer. A
second mount has no step. That a drive that is off can be mounted, against the words of U15 and D34,
is the model's reading: log entry 23 (DEDUCED). That of several pairs of one address the last stands
and that pairs past `len` drop is the model's choice: log entry 11 (DESIGN CHOICE). -/
def Obligations.MountResult : Prop :=
  ∀ (s : State) (d : Nat) (dr : Drive) (f : Format) (cells : List Host.Cell) (len : Nat) (wp : Bool),
    s.Sound → s.drives[d]? = some dr →
    let P := s.params
    let idAt := (P.formats.get f).idOffset
    let ht := min dr.mech.ht (2 * maxTrackOf P f)
    (dr.img = none → ∃ t im, exec (.sysMount d f cells len wp) s = .next t ∧
      im.format = f ∧ im.len = len ∧ im.maxTrack = maxTrackOf P f ∧ im.table = buildTable P f ∧
      (∀ a, im.read a = if a < len then cellAt cells a else 0) ∧
      im.id1 = im.read idAt ∧ im.id2 = im.read (idAt + 1) ∧
      DriveBecomes d s t
        { dr with
          img := some im, wp := wp, buf := sectorBuffer P im (ht / 2) 0
          mech := { dr.mech with ht := ht, sector := 0, pos := 0, ffcount := 0, sync := false } }
        .none) ∧
    (dr.img ≠ none → exec (.sysMount d f cells len wp) s = .refused (.imageMounted d))

/-- R193, R280: unmounting takes the image away, clamps the head, stops the motor and its timer and
cancels the drive's waiting requests; the buffer and every chip register stay. That it completes on a
drive that is off, against the words of U15 and D34, and on one without an image is the model's
reading: log entry 23 (DEDUCED). -/
def Obligations.UnmountResult : Prop :=
  ∀ (s : State) (d : Nat) (dr : Drive), s.drives[d]? = some dr →
    ∃ t dr', exec (.sysUnmount d) s = .next t ∧ OnlyDrive d s t ∧ t.events = s.events ∧
      t.result = .none ∧ t.drives[d]? = some dr' ∧
      (t.retryArmed = t.drives.any fun x => x.powered && x.ctl.anyRetry) ∧
      dr' = { dr with
        img := none, wp := false, ctl := dr'.ctl
        mech := { dr.mech with
          ht := min dr.mech.ht (2 * s.params.noimgMaxTrack), motor := false, timerArmed := false } } ∧
      Controller.SameRegs dr.ctl dr'.ctl ∧
      ∀ c, dr'.ctl.asks c = dr.ctl.asks c ∧ dr'.ctl.waits c = false

/-- R300, R301, R53: a machine reset releases the bus without a notification, sets the pair idle,
resets every chip and every mechanism (with an image the buffer holds track 1, sector 0), and
leaves power, images and write protect alone. -/
def Obligations.SysResetResult : Prop :=
  ∀ s : State, s.Sound → ∃ t, exec .sysReset s = .next t ∧
    t.bus = ⟨List.replicate s.bus.latches.length Lines.released, Lines.released⟩ ∧
    t.par = ⟨false, true, 0xFF⟩ ∧ t.retryArmed = false ∧ t.result = .none ∧
    t.params = s.params ∧ t.requests = s.requests ∧ t.draws = s.draws ∧
    t.drives.length = s.drives.length ∧
    t.events = (((List.range s.drives.length).filter fun d =>
        ((s.drives[d]?).map fun dr => dr.cpuIrq).getD false).map fun d => .cpuIrq d false).reverse
      ++ s.events ∧
    ∀ (d : Nat) (dr : Drive), s.drives[d]? = some dr → t.drives[d]? = some
      { dr with
        cpuIrq := false
        buf := match dr.img with
          | none => dr.buf
          | some im => encodeSector s.params 1 0 im.id1 im.id2 ((List.range 256).map im.read)
        mech := { dr.mech with
          ht := 2, sector := 0, pos := 0, ffcount := 0, sync := false, motor := false, zone := 0
          phase := 0, timerArmed := false }
        ctl := match dr.ctl with
          | .via _ _ => .via ViaChip.afterReset ViaChip.afterReset
          | .tpi _ => .tpi TpiChip.afterReset }

/-- R302: power-on sets `powered` and resets the chips; the mechanism stays. A drive that is on
cannot be switched on. -/
def Obligations.PowerOnResult : Prop :=
  ∀ (s : State) (d : Nat) (dr : Drive), s.Sound → s.drives[d]? = some dr →
    (dr.powered = false → ∃ t, exec (.sysPwron d) s = .next t ∧
      DriveBecomes d s t { dr with powered := true, ctl := dr.ctl.cleared } .none) ∧
    (dr.powered = true → exec (.sysPwron d) s = .refused (.drivePoweredOn d))

/-- R303: power-off resets the chips, stops the mechanism, cuts the power and then releases the
drive's three latches with ordinary notifications, which the drive itself does not hear. A drive
that is off cannot be switched off. -/
def Obligations.PowerOffResult : Prop :=
  ∀ (s : State) (d : Nat) (dr : Drive), s.Sound → s.drives[d]? = some dr →
    (dr.powered = true → ∃ t, exec (.sysPwroff d) s = .next t ∧ t.result = .none ∧ SameFixed s t ∧
      t.drives.length = s.drives.length ∧
      t.drives[d]? = some { dr with
        powered := false, cpuIrq := false, ctl := dr.ctl.cleared
        mech := { dr.mech with
          motor := false, timerArmed := false, ffcount := 0, sync := false, zone := 0, phase := 0 } } ∧
      t.bus.latches = s.bus.latches.modify (d + 1) (fun _ => Lines.released) ∧
      (∀ l, t.bus.line.get l = t.bus.latches.all fun p => p.get l) ∧
      (∀ (e : Nat) (x : Drive), e ≠ d → s.drives[e]? = some x → ∃ x', t.drives[e]? = some x' ∧
        (t.bus.line.atn = s.bus.line.atn → x' = x) ∧
        (t.bus.line.atn ≠ s.bus.line.atn → EdgeReaches s.params .atn t.bus.line.atn x x')) ∧
      (t.retryArmed = t.drives.any fun x => x.powered && x.ctl.anyRetry) ∧
      t.events.filter Event.isBusEdge =
        lineEvents t .data s.bus.line.data t.bus.line.data ++
        lineEvents t .clock s.bus.line.clock t.bus.line.clock ++
        lineEvents t .atn s.bus.line.atn t.bus.line.atn ++ s.events.filter Event.isBusEdge ∧
      t.events.filter (Event.isCpuIrq d) =
        (if dr.cpuIrq then [.cpuIrq d false] else []) ++ s.events.filter (Event.isCpuIrq d)) ∧
    (dr.powered = false → exec (.sysPwroff d) s = .refused (.drivePoweredOff d))

/-! ### The bus and the pair (R160 to R173) -/

/-- R161, R162: `BUS.SET` stores one latch, recomputes that line alone, and, where the line changed,
notifies every participant once, in order, before it returns. -/
def Obligations.BusSetResult : Prop :=
  ∀ (s : State) (p : Nat) (l : Line) (v : Bool), s.ShapeOk →
    p = 0 ∨ (∃ dr, s.drives[p - 1]? = some dr ∧ dr.powered = true) →
    ∃ t, exec (.busSet p l v) s = .next t ∧ t.result = .none ∧ SameFixed s t ∧
      t.bus.latches = s.bus.latches.modify p (fun x => x.set l v) ∧
      t.bus.line = s.bus.line.set l (t.bus.latches.all fun x => x.get l) ∧
      t.drives.length = s.drives.length ∧
      t.events.filter Event.isBusEdge =
        lineEvents s l (s.bus.line.get l) (t.bus.line.get l) ++ s.events.filter Event.isBusEdge ∧
      (t.bus.line.get l = s.bus.line.get l →
        t.drives = s.drives ∧ t.events = s.events ∧ t.retryArmed = s.retryArmed) ∧
      (t.bus.line.get l ≠ s.bus.line.get l → ∀ (d : Nat) (dr : Drive), s.drives[d]? = some dr →
        ∃ dr', t.drives[d]? = some dr' ∧ EdgeReaches s.params l (t.bus.line.get l) dr dr')

/-- R164: every participant reads the stored line value, which on a consistent bus is the AND of
the latches. -/
def Obligations.BusGetResult : Prop :=
  ∀ (s : State) (l : Line), exec (.busGet l) s = .next (s.returns (.bit (s.bus.line.get l))) ∧
    (BusConsistent s.bus → s.bus.line.get l = s.bus.latches.all fun p => p.get l)

/-- R165, R221: what one notification does: the host's is an event; a powered drive's is an event,
and for an active ATN edge at a VIA drive the bus chip's flag; an unpowered drive's is nothing. -/
def Obligations.NotifyResult : Prop :=
  ∀ (s : State) (l : Line) (v : Bool), s.ShapeOk →
    exec (.busNotify 0 l v) s =
      .next { s with events := .busEdge 0 l v :: s.events, result := .none } ∧
    ∀ (d : Nat) (dr : Drive), s.drives[d]? = some dr →
      let s1 : State := { s with events := .busEdge (d + 1) l v :: s.events }
      (dr.powered = false → exec (.busNotify (d + 1) l v) s = .next (s.returns .none)) ∧
      (∀ c, TpiAt s d dr c → exec (.busNotify (d + 1) l v) s = .next (s1.returns .none)) ∧
      ∀ b dd, ViaAt s d dr b dd →
        (¬ (l = .atn ∧ activeAtn s.params b v) →
          exec (.busNotify (d + 1) l v) s = .next (s1.returns .none)) ∧
        (l = .atn ∧ activeAtn s.params b v → ∃ t, exec (.busNotify (d + 1) l v) s = .next t ∧
          t.result = .none ∧ ViaUpdated d s1 t dr { b with ca1Flag := true } dd)

/-- R168 to R172: the fast/parallel pair, and what a disabled pair reads. -/
def Obligations.ParallelPairResult : Prop :=
  ∀ (s : State) (v : Bool) (x : Byte),
    exec (.parEnable v) s =
      .next { s with par := { s.par with enable := v }, result := .none } ∧
    (s.par.enable = true →
      exec (.parWrdata x) s = .next { s with par := { s.par with data := x }, result := .none } ∧
      exec .parRddata s = .next (s.returns (.byte s.par.data)) ∧
      exec (.parWrack v) s = .next { s with par := { s.par with ack := v }, result := .none } ∧
      exec .parRdack s = .next (s.returns (.bit s.par.ack))) ∧
    (s.par.enable = false →
      exec (.parWrdata x) s = .next (s.returns .none) ∧
      exec .parRddata s = .next (s.returns (.byte 0xFF)) ∧
      exec (.parWrack v) s = .next (s.returns .none) ∧
      exec .parRdack s = .next (s.returns (.bit true)))

/-- R173: the pair and the three-line bus are independent: a `BUS.*` operation neither reads nor
writes the pair, a `PAR.*` operation neither reads nor writes the bus or a drive. -/
def Obligations.PairIndependentOfBus : Prop :=
  (∀ (s : State) (par : Par) (p : Nat) (l : Line) (v : Bool),
    let swap := fun t : State => { t with par := par }
    exec (.busSet p l v) (swap s) = mapOut swap (exec (.busSet p l v) s) ∧
    exec (.busGet l) (swap s) = mapOut swap (exec (.busGet l) s) ∧
    exec (.busNotify p l v) (swap s) = mapOut swap (exec (.busNotify p l v) s)) ∧
  (∀ (s : State) (bus : Bus) (drives : List Drive) (v : Bool) (x : Byte),
    let swap := fun t : State => { t with bus := bus, drives := drives }
    ∀ i ∈ [Instr.parEnable v, .parWrdata x, .parRddata, .parWrack v, .parRdack],
      exec i (swap s) = mapOut swap (exec i s))

/-! ### The VIA pair (R210 to R231) -/

/-- R214, R211, R212: the bus status byte, bit by bit; nothing else changes. -/
def Obligations.BusStatusByte : Prop :=
  ∀ (s : State) (d : Nat) (dr : Drive) (b dd : ViaChip), ViaAt s d dr b dd →
    s.params.pinmapViab = defaultPinmapViab →
    ∃ r, exec (.viabRdPb d) s = .next (s.returns (.byte r)) ∧
      ReadsBack r b.orb b.ddrb fun j =>
        if j = 0 then s.params.busInvert ^^ s.bus.line.data
        else if j = 2 then s.params.busInvert ^^ s.bus.line.clock
        else if j = 7 then s.params.busInvert ^^ s.bus.line.atn
        else if j = 5 then dr.devSel.getLsbD 0
        else if j = 6 then dr.devSel.getLsbD 1
        else bitAt s.params.floatIn j

/-- R219, R211: the mechanism status byte, bit by bit; nothing else changes. -/
def Obligations.MechanismStatusByte : Prop :=
  ∀ (s : State) (d : Nat) (dr : Drive) (b dd : ViaChip), ViaAt s d dr b dd →
    s.params.pinmapViad = defaultPinmapViad →
    ∃ r, exec (.viadRdPb d) s = .next (s.returns (.byte r)) ∧
      ReadsBack r dd.orb dd.ddrb fun j =>
        if j = 4 then s.params.wpActiveLow ^^ dr.wp
        else if j = 7 then s.params.syncActiveLow ^^ dr.mech.sync
        else bitAt s.params.floatIn j

/-- R215, R218, R211, R223: a port A read returns the read-back byte (at the disk chip, of the GCR
byte under the head), clears the chip's flag and recomputes the interrupt outputs. -/
def Obligations.PortAReads : Prop :=
  ∀ (s : State) (d : Nat) (dr : Drive) (b dd : ViaChip), ViaAt s d dr b dd →
    (∃ t r, exec (.viabRdPa d) s = .next t ∧ t.result = .byte r ∧
      ReadsBack r b.ora b.ddra (bitAt s.params.floatIn) ∧
      ViaUpdated d s t dr { b with ca1Flag := false } dd) ∧
    (∃ t r, exec (.viadRdPa d) s = .next t ∧ t.result = .byte r ∧
      ReadsBack r dd.ora dd.ddra (bitAt (dr.buf.getD dr.mech.pos 0)) ∧
      ViaUpdated d s t dr b { dd with ca1Flag := false })

/-- R217, R225, R223: a port A write stores the latch, clears the chip's flag and recomputes the
interrupt outputs. -/
def Obligations.PortAWrites : Prop :=
  ∀ (s : State) (d : Nat) (dr : Drive) (b dd : ViaChip) (v : Byte), ViaAt s d dr b dd →
    (∃ t, exec (.viabWrPa d v) s = .next t ∧ t.result = .none ∧
      ViaUpdated d s t dr { b with ora := v, ca1Flag := false } dd) ∧
    (∃ t, exec (.viadWrPa d v) s = .next t ∧ t.result = .none ∧
      ViaUpdated d s t dr b { dd with ora := v, ca1Flag := false })

/-- R216, R228: a write of the bus chip's port B or of its DDR puts DATA and CLOCK out through the
drive's latches, notifies where a line changed, and changes no register but the one written. -/
def Obligations.BusChipDrivesLines : Prop :=
  ∀ (s : State) (d : Nat) (dr : Drive) (b dd : ViaChip) (v : Byte), ViaAt s d dr b dd →
    s.params.pinmapViab = defaultPinmapViab →
    ∀ i b1, (i = .viabWrPb d v ∧ b1 = { b with orb := v }) ∨
        (i = .viaWrDdrb d .viab v ∧ b1 = { b with ddrb := v }) →
      ∃ t, exec i s = .next t ∧ t.result = .none ∧ SameFixed s t ∧ t.retryArmed = s.retryArmed ∧
        t.drives = s.drives.set d { dr with ctl := .via b1 dd } ∧
        t.bus.latches = s.bus.latches.modify (d + 1) (fun x =>
          { x with data := putsOut s.params b1 1, clock := putsOut s.params b1 3 }) ∧
        t.bus.line = ⟨s.bus.line.atn, t.bus.latches.all fun x => x.clock,
          t.bus.latches.all fun x => x.data⟩ ∧
        t.events = lineEvents s .clock s.bus.line.clock t.bus.line.clock ++
          lineEvents s .data s.bus.line.data t.bus.line.data ++ s.events

/-- R220, R228: a write of the disk chip's port B or of its DDR commands the mechanism with the
driven bits of the new port value, exactly as `MECH.CTRL` with that byte does. -/
def Obligations.DiskChipCommandsMechanism : Prop :=
  ∀ (s : State) (d : Nat) (dr : Drive) (b dd : ViaChip) (v : Byte), ViaAt s d dr b dd →
    let withChip := fun dd1 : ViaChip =>
      { s with drives := s.drives.set d { dr with ctl := .via b dd1 } }
    (∃ t, exec (.viadWrPb d v) s = .next t ∧
      exec (.mechCtrl d (v &&& dd.ddrb)) (withChip { dd with orb := v }) = .next t) ∧
    (∃ t, exec (.viaWrDdrb d .viad v) s = .next t ∧
      exec (.mechCtrl d (dd.orb &&& v)) (withChip { dd with ddrb := v }) = .next t)

/-- R226, R227, R229, R224: DDR reads, port A DDR writes, and reads of the control/timer registers,
whose value is free (entry 7): the read completes with some byte and changes no state of the
block. -/
def Obligations.ViaPlainRegisters : Prop :=
  ∀ (s : State) (d : Nat) (dr : Drive) (b dd : ViaChip) (v : Byte) (k : Fin 4), ViaAt s d dr b dd →
    exec (.viaRdDdrb d .viab) s = .next (s.returns (.byte b.ddrb)) ∧
    exec (.viaRdDdrb d .viad) s = .next (s.returns (.byte dd.ddrb)) ∧
    exec (.viaRdDdra d .viab) s = .next (s.returns (.byte b.ddra)) ∧
    exec (.viaRdDdra d .viad) s = .next (s.returns (.byte dd.ddra)) ∧
    (∃ t, exec (.viaWrDdra d .viab v) s = .next t ∧
      DriveBecomes d s t { dr with ctl := .via { b with ddra := v } dd } .none) ∧
    (∃ t, exec (.viaWrDdra d .viad v) s = .next t ∧
      DriveBecomes d s t { dr with ctl := .via b { dd with ddra := v } } .none) ∧
    ∀ c, ∃ x n, exec (.viaRdCt d c k) s = .next { s with draws := n, result := .byte x }

/-- R230, R231, R224: a write of a control/timer register, and the level of the undescribed
interrupt sources, reach the interrupt outputs at once; a chip with four zero control bytes enables
nothing. -/
def Obligations.ControlRegistersAndOtherSources : Prop :=
  (∀ (s : State) (d : Nat) (dr : Drive) (b dd : ViaChip) (k : Fin 4) (v : Byte) (level : Bool),
    ViaAt s d dr b dd →
    (∃ t ct, exec (.viaWrCt d .viab k v) s = .next t ∧ t.result = .none ∧
      (∀ j, ctGet ct j = if j = k then v else ctGet b.ct j) ∧
      ViaUpdated d s t dr { b with ct := ct } dd) ∧
    (∃ t ct, exec (.viaWrCt d .viad k v) s = .next t ∧ t.result = .none ∧
      (∀ j, ctGet ct j = if j = k then v else ctGet dd.ct j) ∧
      ViaUpdated d s t dr b { dd with ct := ct }) ∧
    (∃ t, exec (.viaOtherirq d .viab level) s = .next t ∧ t.result = .none ∧
      ViaUpdated d s t dr { b with otherIrq := level } dd) ∧
    (∃ t, exec (.viaOtherirq d .viad level) s = .next t ∧ t.result = .none ∧
      ViaUpdated d s t dr b { dd with otherIrq := level })) ∧
  ∀ P : Params, (ctrlDecode P ⟨0, 0, 0, 0⟩).ca1Enable = false

/-! ### The TPI (R240 to R264) -/

/-- R245, R246, R249 to R252, R253, R254, R259, R261, R262: the TPI's reads without side effect
and its writes without one. -/
def Obligations.TpiPlainRegisters : Prop :=
  ∀ (s : State) (d : Nat) (dr : Drive) (c : TpiChip) (v : Byte), TpiAt s d dr c →
    (∃ r, exec (.tpiRdPa d) s = .next (s.returns (.byte r)) ∧
      ReadsBack r c.pra c.ddra (bitAt (dr.buf.getD dr.mech.pos 0))) ∧
    (∃ r, exec (.tpiRdPb d) s = .next (s.returns (.byte r)) ∧
      ReadsBack r c.prb c.ddrb (bitAt s.params.floatIn)) ∧
    exec (.tpiRdDdra d) s = .next (s.returns (.byte c.ddra)) ∧
    exec (.tpiRdDdrb d) s = .next (s.returns (.byte c.ddrb)) ∧
    exec (.tpiRdDdrc d) s = .next (s.returns (.byte c.ddrc)) ∧
    exec (.tpiRdCr d) s = .next (s.returns (.byte c.cr)) ∧
    exec (.tpiWrAir d v) s = .next (s.returns .none) ∧
    (∃ t, exec (.tpiWrPa d v) s = .next t ∧
      DriveBecomes d s t { dr with ctl := .tpi { c with pra := v } } .none) ∧
    (∃ t, exec (.tpiWrPb d v) s = .next t ∧
      DriveBecomes d s t { dr with ctl := .tpi { c with prb := v } } .none) ∧
    (∃ t, exec (.tpiWrDdra d v) s = .next t ∧
      DriveBecomes d s t { dr with ctl := .tpi { c with ddra := v } } .none) ∧
    (∃ t, exec (.tpiWrDdrb d v) s = .next t ∧
      DriveBecomes d s t { dr with ctl := .tpi { c with ddrb := v } } .none)

/-- R247, R248, R211: port C in ordinary mode, bit by bit; in interrupt mode bits 7:6 as there and
bits 5:0 free (entry 7). The read changes no state of the block. -/
def Obligations.TpiPortCRead : Prop :=
  ∀ (s : State) (d : Nat) (dr : Drive) (c : TpiChip), TpiAt s d dr c →
    let m := s.params.pinmapTpi
    let pin := fun j : Fin 8 =>
      if j = m.devsel then dr.devSel.getLsbD 0
      else if j = m.sync then s.params.syncActiveLow ^^ dr.mech.sync
      else if j = m.dav then c.hsDav
      else bitAt s.params.floatIn j
    (bitAt c.cr s.params.tpiCr.mc = false →
      ∃ r, exec (.tpiRdPc d) s = .next (s.returns (.byte r)) ∧ ReadsBack r c.prc c.ddrc pin) ∧
    (bitAt c.cr s.params.tpiCr.mc = true →
      ∃ r n, exec (.tpiRdPc d) s = .next { s with draws := n, result := .byte r } ∧
        ∀ j : Fin 8, 6 ≤ j.val → bitAt r j = if bitAt c.ddrc j then bitAt c.prc j else pin j)

/-- R258: a read of the interrupt-active register: priorized, the highest pending source is reported
and cleared; non-priorized, all are. -/
def Obligations.AirRead : Prop :=
  ∀ (s : State) (d : Nat) (dr : Drive) (c : TpiChip), TpiAt s d dr c →
    ∃ t r air, exec (.tpiRdAir d) s = .next t ∧ t.result = .byte r ∧
      TpiUpdated d s t dr { c with air := air } ∧
      (bitAt c.cr s.params.tpiCr.ip = false → r = c.air ∧ air = 0) ∧
      (bitAt c.cr s.params.tpiCr.ip = true → c.air.extractLsb' 0 5 = 0 → r = 0 ∧ air = c.air) ∧
      (bitAt c.cr s.params.tpiCr.ip = true → ∀ i : Fin 5, c.air.getLsbD i.val = true →
        (∀ j : Fin 5, i < j → c.air.getLsbD j.val = false) →
        r = 1#8 <<< i.val ∧ air = c.air &&& ~~~(1#8 <<< i.val))

/-- R260, R255, R257: writes of port C, of its DDR and of the configuration register; in ordinary
mode the acknowledge line follows the driven ACK pin, and after a write of `cr` the interrupt output
is recomputed. -/
def Obligations.AcknowledgeFollowsPortC : Prop :=
  ∀ (s : State) (d : Nat) (dr : Drive) (c : TpiChip) (v : Byte), TpiAt s d dr c →
    let mc := s.params.tpiCr.mc
    let a := s.params.pinmapTpi.ack
    let ack := fun (cr prc ddrc : Byte) =>
      if bitAt cr mc then c.hsAck else if bitAt ddrc a then bitAt prc a else true
    (∃ t, exec (.tpiWrPc d v) s = .next t ∧ DriveBecomes d s t
      { dr with ctl := .tpi { c with prc := v, hsAck := ack c.cr v c.ddrc } } .none) ∧
    (∃ t, exec (.tpiWrDdrc d v) s = .next t ∧ DriveBecomes d s t
      { dr with ctl := .tpi { c with ddrc := v, hsAck := ack c.cr c.prc v } } .none) ∧
    (∃ t, exec (.tpiWrCr d v) s = .next t ∧ t.result = .none ∧
      TpiUpdated d s t dr { c with cr := v, hsAck := ack v c.prc c.ddrc })

/-- R256: a level change on an interrupt input is stored; in interrupt mode an active edge of an
enabled source that is not pending makes it pending and recomputes the interrupt output. -/
def Obligations.InterruptInput : Prop :=
  ∀ (s : State) (d : Nat) (dr : Drive) (c : TpiChip) (n : Fin 5) (level : Bool), TpiAt s d dr c →
    let m := s.params.tpiCr
    let active := if n.val < 3 then level = false
      else if n.val = 3 then level = bitAt c.cr m.ie3 else level = bitAt c.cr m.ie4
    let fires := bitAt c.cr m.mc = true ∧ c.irqLevel[n] ≠ level ∧ active ∧
      c.ddrc.getLsbD n.val = true ∧ c.air.getLsbD n.val = false
    let c1 : TpiChip := { c with irqLevel := c.irqLevel.set n level }
    (fires → ∃ t, exec (.tpiIrqin d n level) s = .next t ∧ t.result = .none ∧
      TpiUpdated d s t dr { c1 with air := c.air ||| (1#8 <<< n.val) }) ∧
    (¬ fires → ∃ t, exec (.tpiIrqin d n level) s = .next t ∧
      DriveBecomes d s t { dr with ctl := .tpi c1 } .none)

/-- R263, R264, R244: the host's side of the handshake pair. The write has no step while the drive is
off (U15); the read has, and an unpowered drive's acknowledge reads 1 (entry 16). -/
def Obligations.HostHandshake : Prop :=
  ∀ (s : State) (d : Nat) (dr : Drive) (c : TpiChip) (v : Bool), s.drives[d]? = some dr →
    dr.ctl = .tpi c →
    (dr.powered = false → exec (.tpiHostwr d v) s = .refused (.drivePoweredOff d)) ∧
    (dr.powered = true → ∃ t, exec (.tpiHostwr d v) s = .next t ∧
      DriveBecomes d s t { dr with ctl := .tpi { c with hsDav := v } } .none) ∧
    exec (.tpiHostrd d) s = .next (s.returns (.bit c.hsAck)) ∧
    (s.Sound → dr.powered = false → exec (.tpiHostrd d) s = .next (s.returns (.bit true)))

/-! ### Interrupts (R275 to R283) -/

/-- R277, R275, R276: `IRQ.UPDATE` makes the stored outputs agree with the chips, emits a change of
the CPU interrupt input, records a collision and recounts the retry timer; it changes nothing
else. A drive that is off has no such step (U15, entry 9). -/
def Obligations.IrqUpdateResult : Prop :=
  ∀ (s : State) (d : Nat) (dr : Drive), s.drives[d]? = some dr →
    (dr.powered = false → exec (.irqUpdate d) s = .refused (.drivePoweredOff d)) ∧
    (dr.powered = true → ∃ t, exec (.irqUpdate d) s = .next t ∧ t.result = .none ∧
      (∀ b dd, dr.ctl = .via b dd → ViaUpdated d s t dr b dd) ∧
      (∀ c, dr.ctl = .tpi c → TpiUpdated d s t dr c))

/-- R279, R280: a firing of the retry timer delivers every waiting request of a powered drive whose
other chip is silent, touches no output, and disarms itself when none waits. Disarmed, it has no
step. The order of the `irqDelivered` events (drives in ascending number, `VIAB` before `VIAD`) is
the model's choice, which R279 leaves open: log entry 24 (DESIGN CHOICE). -/
def Obligations.IrqRetryResult : Prop :=
  ∀ s : State,
    (s.retryArmed = true → ∃ t, exec .irqRetry s = .next t ∧ t.result = .none ∧ SameFixed s t ∧
      t.bus = s.bus ∧ t.drives.length = s.drives.length ∧
      (t.retryArmed = t.drives.any fun x => x.powered && x.ctl.anyRetry) ∧
      t.events = ((List.range s.drives.length).flatMap fun d =>
        match s.drives[d]? with
        | none => []
        | some dr => if dr.powered then
            ([ChipId.viab, .viad, .tpi].filter fun c => dr.ctl.waits c && !dr.ctl.otherAsks c).map
              fun c => .irqDelivered d c
          else []).reverse ++ s.events ∧
      ∀ (d : Nat) (dr : Drive), s.drives[d]? = some dr → ∃ dr', t.drives[d]? = some dr' ∧
        (dr.powered = false → dr' = dr) ∧
        (dr.powered = true → SameMechanism dr dr' ∧ dr'.cpuIrq = dr.cpuIrq ∧
          Controller.SameRegs dr.ctl dr'.ctl ∧ ∀ c, dr'.ctl.asks c = dr.ctl.asks c ∧
            dr'.ctl.waits c = (dr.ctl.waits c && dr.ctl.otherAsks c))) ∧
    (s.retryArmed = false → exec .irqRetry s = .refused .retryDisarmed)

end
end

