-- ==== Sys2Proof/Laws/State.lean ====
section
/-! SUPPORT. One lemma per field per named update of the state and of a drive, each true by `rfl`,
so that no later proof unfolds a record update. -/

namespace Sys2Proof.Machine

-- One theorem after another: side by side each takes a thread and its stack.
set_option Elab.async false

/-! ### `State.emit` -/

@[simp] theorem State.emit_params (s : State) (e : Event) :
    (s.emit e).params = s.params := rfl

@[simp] theorem State.emit_bus (s : State) (e : Event) :
    (s.emit e).bus = s.bus := rfl

@[simp] theorem State.emit_par (s : State) (e : Event) :
    (s.emit e).par = s.par := rfl

@[simp] theorem State.emit_drives (s : State) (e : Event) :
    (s.emit e).drives = s.drives := rfl

@[simp] theorem State.emit_retryArmed (s : State) (e : Event) :
    (s.emit e).retryArmed = s.retryArmed := rfl

@[simp] theorem State.emit_requests (s : State) (e : Event) :
    (s.emit e).requests = s.requests := rfl

@[simp] theorem State.emit_result (s : State) (e : Event) :
    (s.emit e).result = s.result := rfl

@[simp] theorem State.emit_events (s : State) (e : Event) :
    (s.emit e).events = e :: s.events := rfl

@[simp] theorem State.emit_draws (s : State) (e : Event) :
    (s.emit e).draws = s.draws := rfl

/-! ### `State.returns` -/

@[simp] theorem State.returns_params (s : State) (r : Result) :
    (s.returns r).params = s.params := rfl

@[simp] theorem State.returns_bus (s : State) (r : Result) :
    (s.returns r).bus = s.bus := rfl

@[simp] theorem State.returns_par (s : State) (r : Result) :
    (s.returns r).par = s.par := rfl

@[simp] theorem State.returns_drives (s : State) (r : Result) :
    (s.returns r).drives = s.drives := rfl

@[simp] theorem State.returns_retryArmed (s : State) (r : Result) :
    (s.returns r).retryArmed = s.retryArmed := rfl

@[simp] theorem State.returns_requests (s : State) (r : Result) :
    (s.returns r).requests = s.requests := rfl

@[simp] theorem State.returns_result (s : State) (r : Result) :
    (s.returns r).result = r := rfl

@[simp] theorem State.returns_events (s : State) (r : Result) :
    (s.returns r).events = s.events := rfl

@[simp] theorem State.returns_draws (s : State) (r : Result) :
    (s.returns r).draws = s.draws := rfl

/-! ### `State.mapDrive` -/

@[simp] theorem State.mapDrive_params (s : State) (d : Nat) (f : Drive → Drive) :
    (s.mapDrive d f).params = s.params := rfl

@[simp] theorem State.mapDrive_bus (s : State) (d : Nat) (f : Drive → Drive) :
    (s.mapDrive d f).bus = s.bus := rfl

@[simp] theorem State.mapDrive_par (s : State) (d : Nat) (f : Drive → Drive) :
    (s.mapDrive d f).par = s.par := rfl

@[simp] theorem State.mapDrive_drives (s : State) (d : Nat) (f : Drive → Drive) :
    (s.mapDrive d f).drives = s.drives.modify d f := rfl

@[simp] theorem State.mapDrive_retryArmed (s : State) (d : Nat) (f : Drive → Drive) :
    (s.mapDrive d f).retryArmed = s.retryArmed := rfl

@[simp] theorem State.mapDrive_requests (s : State) (d : Nat) (f : Drive → Drive) :
    (s.mapDrive d f).requests = s.requests := rfl

@[simp] theorem State.mapDrive_result (s : State) (d : Nat) (f : Drive → Drive) :
    (s.mapDrive d f).result = s.result := rfl

@[simp] theorem State.mapDrive_events (s : State) (d : Nat) (f : Drive → Drive) :
    (s.mapDrive d f).events = s.events := rfl

@[simp] theorem State.mapDrive_draws (s : State) (d : Nat) (f : Drive → Drive) :
    (s.mapDrive d f).draws = s.draws := rfl

/-! ### `State.mapCtl` -/

@[simp] theorem State.mapCtl_params (s : State) (d : Nat) (f : Controller → Controller) :
    (s.mapCtl d f).params = s.params := rfl

@[simp] theorem State.mapCtl_bus (s : State) (d : Nat) (f : Controller → Controller) :
    (s.mapCtl d f).bus = s.bus := rfl

@[simp] theorem State.mapCtl_par (s : State) (d : Nat) (f : Controller → Controller) :
    (s.mapCtl d f).par = s.par := rfl

@[simp] theorem State.mapCtl_drives (s : State) (d : Nat) (f : Controller → Controller) :
    (s.mapCtl d f).drives = s.drives.modify d fun dr => { dr with ctl := f dr.ctl } := rfl

@[simp] theorem State.mapCtl_retryArmed (s : State) (d : Nat) (f : Controller → Controller) :
    (s.mapCtl d f).retryArmed = s.retryArmed := rfl

@[simp] theorem State.mapCtl_requests (s : State) (d : Nat) (f : Controller → Controller) :
    (s.mapCtl d f).requests = s.requests := rfl

@[simp] theorem State.mapCtl_result (s : State) (d : Nat) (f : Controller → Controller) :
    (s.mapCtl d f).result = s.result := rfl

@[simp] theorem State.mapCtl_events (s : State) (d : Nat) (f : Controller → Controller) :
    (s.mapCtl d f).events = s.events := rfl

@[simp] theorem State.mapCtl_draws (s : State) (d : Nat) (f : Controller → Controller) :
    (s.mapCtl d f).draws = s.draws := rfl

/-! ### `State.mapTpi` -/

@[simp] theorem State.mapTpi_params (s : State) (d : Nat) (f : TpiChip → TpiChip) :
    (s.mapTpi d f).params = s.params := rfl

@[simp] theorem State.mapTpi_bus (s : State) (d : Nat) (f : TpiChip → TpiChip) :
    (s.mapTpi d f).bus = s.bus := rfl

@[simp] theorem State.mapTpi_par (s : State) (d : Nat) (f : TpiChip → TpiChip) :
    (s.mapTpi d f).par = s.par := rfl

@[simp] theorem State.mapTpi_drives (s : State) (d : Nat) (f : TpiChip → TpiChip) :
    (s.mapTpi d f).drives = s.drives.modify d fun dr => { dr with ctl := dr.ctl.mapTpi f } := rfl

@[simp] theorem State.mapTpi_retryArmed (s : State) (d : Nat) (f : TpiChip → TpiChip) :
    (s.mapTpi d f).retryArmed = s.retryArmed := rfl

@[simp] theorem State.mapTpi_requests (s : State) (d : Nat) (f : TpiChip → TpiChip) :
    (s.mapTpi d f).requests = s.requests := rfl

@[simp] theorem State.mapTpi_result (s : State) (d : Nat) (f : TpiChip → TpiChip) :
    (s.mapTpi d f).result = s.result := rfl

@[simp] theorem State.mapTpi_events (s : State) (d : Nat) (f : TpiChip → TpiChip) :
    (s.mapTpi d f).events = s.events := rfl

@[simp] theorem State.mapTpi_draws (s : State) (d : Nat) (f : TpiChip → TpiChip) :
    (s.mapTpi d f).draws = s.draws := rfl

/-! ### `State.setLatch` -/

@[simp] theorem State.setLatch_params (s : State) (p : Nat) (l : Line) (v : Bool) :
    (s.setLatch p l v).params = s.params := rfl

@[simp] theorem State.setLatch_bus (s : State) (p : Nat) (l : Line) (v : Bool) :
    (s.setLatch p l v).bus = { s.bus with latches := s.bus.latches.modify p fun x => x.set l v } := rfl

@[simp] theorem State.setLatch_par (s : State) (p : Nat) (l : Line) (v : Bool) :
    (s.setLatch p l v).par = s.par := rfl

@[simp] theorem State.setLatch_drives (s : State) (p : Nat) (l : Line) (v : Bool) :
    (s.setLatch p l v).drives = s.drives := rfl

@[simp] theorem State.setLatch_retryArmed (s : State) (p : Nat) (l : Line) (v : Bool) :
    (s.setLatch p l v).retryArmed = s.retryArmed := rfl

@[simp] theorem State.setLatch_requests (s : State) (p : Nat) (l : Line) (v : Bool) :
    (s.setLatch p l v).requests = s.requests := rfl

@[simp] theorem State.setLatch_result (s : State) (p : Nat) (l : Line) (v : Bool) :
    (s.setLatch p l v).result = s.result := rfl

@[simp] theorem State.setLatch_events (s : State) (p : Nat) (l : Line) (v : Bool) :
    (s.setLatch p l v).events = s.events := rfl

@[simp] theorem State.setLatch_draws (s : State) (p : Nat) (l : Line) (v : Bool) :
    (s.setLatch p l v).draws = s.draws := rfl

/-! ### `State.setLine` -/

@[simp] theorem State.setLine_params (s : State) (l : Line) (v : Bool) :
    (s.setLine l v).params = s.params := rfl

@[simp] theorem State.setLine_bus (s : State) (l : Line) (v : Bool) :
    (s.setLine l v).bus = { s.bus with line := s.bus.line.set l v } := rfl

@[simp] theorem State.setLine_par (s : State) (l : Line) (v : Bool) :
    (s.setLine l v).par = s.par := rfl

@[simp] theorem State.setLine_drives (s : State) (l : Line) (v : Bool) :
    (s.setLine l v).drives = s.drives := rfl

@[simp] theorem State.setLine_retryArmed (s : State) (l : Line) (v : Bool) :
    (s.setLine l v).retryArmed = s.retryArmed := rfl

@[simp] theorem State.setLine_requests (s : State) (l : Line) (v : Bool) :
    (s.setLine l v).requests = s.requests := rfl

@[simp] theorem State.setLine_result (s : State) (l : Line) (v : Bool) :
    (s.setLine l v).result = s.result := rfl

@[simp] theorem State.setLine_events (s : State) (l : Line) (v : Bool) :
    (s.setLine l v).events = s.events := rfl

@[simp] theorem State.setLine_draws (s : State) (l : Line) (v : Bool) :
    (s.setLine l v).draws = s.draws := rfl

/-! ### `State.mechCtrl` -/

@[simp] theorem State.mechCtrl_params (s : State) (d : Nat) (c : Byte) :
    (s.mechCtrl d c).params = s.params := rfl

@[simp] theorem State.mechCtrl_bus (s : State) (d : Nat) (c : Byte) :
    (s.mechCtrl d c).bus = s.bus := rfl

@[simp] theorem State.mechCtrl_par (s : State) (d : Nat) (c : Byte) :
    (s.mechCtrl d c).par = s.par := rfl

@[simp] theorem State.mechCtrl_drives (s : State) (d : Nat) (c : Byte) :
    (s.mechCtrl d c).drives = s.drives.modify d fun dr => dr.control s.params c := rfl

@[simp] theorem State.mechCtrl_retryArmed (s : State) (d : Nat) (c : Byte) :
    (s.mechCtrl d c).retryArmed = s.retryArmed := rfl

@[simp] theorem State.mechCtrl_requests (s : State) (d : Nat) (c : Byte) :
    (s.mechCtrl d c).requests = s.requests := rfl

@[simp] theorem State.mechCtrl_result (s : State) (d : Nat) (c : Byte) :
    (s.mechCtrl d c).result = s.result := rfl

@[simp] theorem State.mechCtrl_events (s : State) (d : Nat) (c : Byte) :
    (s.mechCtrl d c).events = s.events := rfl

@[simp] theorem State.mechCtrl_draws (s : State) (d : Nat) (c : Byte) :
    (s.mechCtrl d c).draws = s.draws := rfl

/-! ### `State.drawn` -/

@[simp] theorem State.drawn_params (s : State) :
    (s.drawn).params = s.params := rfl

@[simp] theorem State.drawn_bus (s : State) :
    (s.drawn).bus = s.bus := rfl

@[simp] theorem State.drawn_par (s : State) :
    (s.drawn).par = s.par := rfl

@[simp] theorem State.drawn_drives (s : State) :
    (s.drawn).drives = s.drives := rfl

@[simp] theorem State.drawn_retryArmed (s : State) :
    (s.drawn).retryArmed = s.retryArmed := rfl

@[simp] theorem State.drawn_requests (s : State) :
    (s.drawn).requests = s.requests := rfl

@[simp] theorem State.drawn_result (s : State) :
    (s.drawn).result = s.result := rfl

@[simp] theorem State.drawn_events (s : State) :
    (s.drawn).events = s.events := rfl

@[simp] theorem State.drawn_draws (s : State) :
    (s.drawn).draws = s.draws + 1 := rfl

/-! ### `State.recountRetry` -/

@[simp] theorem State.recountRetry_params (s : State) :
    (s.recountRetry).params = s.params := rfl

@[simp] theorem State.recountRetry_bus (s : State) :
    (s.recountRetry).bus = s.bus := rfl

@[simp] theorem State.recountRetry_par (s : State) :
    (s.recountRetry).par = s.par := rfl

@[simp] theorem State.recountRetry_drives (s : State) :
    (s.recountRetry).drives = s.drives := rfl

@[simp] theorem State.recountRetry_retryArmed (s : State) :
    (s.recountRetry).retryArmed = s.drives.any fun dr => dr.powered && dr.ctl.anyRetry := rfl

@[simp] theorem State.recountRetry_requests (s : State) :
    (s.recountRetry).requests = s.requests := rfl

@[simp] theorem State.recountRetry_result (s : State) :
    (s.recountRetry).result = s.result := rfl

@[simp] theorem State.recountRetry_events (s : State) :
    (s.recountRetry).events = s.events := rfl

@[simp] theorem State.recountRetry_draws (s : State) :
    (s.recountRetry).draws = s.draws := rfl

/-! ### `State.withRequests` -/

@[simp] theorem State.withRequests_params (s : State) (q : List Request) :
    (s.withRequests q).params = s.params := rfl

@[simp] theorem State.withRequests_bus (s : State) (q : List Request) :
    (s.withRequests q).bus = s.bus := rfl

@[simp] theorem State.withRequests_par (s : State) (q : List Request) :
    (s.withRequests q).par = s.par := rfl

@[simp] theorem State.withRequests_drives (s : State) (q : List Request) :
    (s.withRequests q).drives = s.drives := rfl

@[simp] theorem State.withRequests_retryArmed (s : State) (q : List Request) :
    (s.withRequests q).retryArmed = s.retryArmed := rfl

@[simp] theorem State.withRequests_requests (s : State) (q : List Request) :
    (s.withRequests q).requests = q := rfl

@[simp] theorem State.withRequests_result (s : State) (q : List Request) :
    (s.withRequests q).result = s.result := rfl

@[simp] theorem State.withRequests_events (s : State) (q : List Request) :
    (s.withRequests q).events = s.events := rfl

@[simp] theorem State.withRequests_draws (s : State) (q : List Request) :
    (s.withRequests q).draws = s.draws := rfl

/-! ### `Drive.withSector` -/

@[simp] theorem Drive.withSector_devSel (dr : Drive) (n : Nat) :
    (dr.withSector n).devSel = dr.devSel := rfl

@[simp] theorem Drive.withSector_powered (dr : Drive) (n : Nat) :
    (dr.withSector n).powered = dr.powered := rfl

@[simp] theorem Drive.withSector_wp (dr : Drive) (n : Nat) :
    (dr.withSector n).wp = dr.wp := rfl

@[simp] theorem Drive.withSector_img (dr : Drive) (n : Nat) :
    (dr.withSector n).img = dr.img := rfl

@[simp] theorem Drive.withSector_buf (dr : Drive) (n : Nat) :
    (dr.withSector n).buf = dr.buf := rfl

@[simp] theorem Drive.withSector_mech (dr : Drive) (n : Nat) :
    (dr.withSector n).mech = { dr.mech with sector := n } := rfl

@[simp] theorem Drive.withSector_ctl (dr : Drive) (n : Nat) :
    (dr.withSector n).ctl = dr.ctl := rfl

@[simp] theorem Drive.withSector_cpuIrq (dr : Drive) (n : Nat) :
    (dr.withSector n).cpuIrq = dr.cpuIrq := rfl

/-! ### `Drive.withHt` -/

@[simp] theorem Drive.withHt_devSel (dr : Drive) (n : Nat) :
    (dr.withHt n).devSel = dr.devSel := rfl

@[simp] theorem Drive.withHt_powered (dr : Drive) (n : Nat) :
    (dr.withHt n).powered = dr.powered := rfl

@[simp] theorem Drive.withHt_wp (dr : Drive) (n : Nat) :
    (dr.withHt n).wp = dr.wp := rfl

@[simp] theorem Drive.withHt_img (dr : Drive) (n : Nat) :
    (dr.withHt n).img = dr.img := rfl

@[simp] theorem Drive.withHt_buf (dr : Drive) (n : Nat) :
    (dr.withHt n).buf = dr.buf := rfl

@[simp] theorem Drive.withHt_mech (dr : Drive) (n : Nat) :
    (dr.withHt n).mech = { dr.mech with ht := n } := rfl

@[simp] theorem Drive.withHt_ctl (dr : Drive) (n : Nat) :
    (dr.withHt n).ctl = dr.ctl := rfl

@[simp] theorem Drive.withHt_cpuIrq (dr : Drive) (n : Nat) :
    (dr.withHt n).cpuIrq = dr.cpuIrq := rfl

/-! ### `Drive.withPos` -/

@[simp] theorem Drive.withPos_devSel (dr : Drive) (n : Nat) :
    (dr.withPos n).devSel = dr.devSel := rfl

@[simp] theorem Drive.withPos_powered (dr : Drive) (n : Nat) :
    (dr.withPos n).powered = dr.powered := rfl

@[simp] theorem Drive.withPos_wp (dr : Drive) (n : Nat) :
    (dr.withPos n).wp = dr.wp := rfl

@[simp] theorem Drive.withPos_img (dr : Drive) (n : Nat) :
    (dr.withPos n).img = dr.img := rfl

@[simp] theorem Drive.withPos_buf (dr : Drive) (n : Nat) :
    (dr.withPos n).buf = dr.buf := rfl

@[simp] theorem Drive.withPos_mech (dr : Drive) (n : Nat) :
    (dr.withPos n).mech = { dr.mech with pos := n } := rfl

@[simp] theorem Drive.withPos_ctl (dr : Drive) (n : Nat) :
    (dr.withPos n).ctl = dr.ctl := rfl

@[simp] theorem Drive.withPos_cpuIrq (dr : Drive) (n : Nat) :
    (dr.withPos n).cpuIrq = dr.cpuIrq := rfl

/-! ### `Drive.withPhase` -/

@[simp] theorem Drive.withPhase_devSel (dr : Drive) (p : Bits2) :
    (dr.withPhase p).devSel = dr.devSel := rfl

@[simp] theorem Drive.withPhase_powered (dr : Drive) (p : Bits2) :
    (dr.withPhase p).powered = dr.powered := rfl

@[simp] theorem Drive.withPhase_wp (dr : Drive) (p : Bits2) :
    (dr.withPhase p).wp = dr.wp := rfl

@[simp] theorem Drive.withPhase_img (dr : Drive) (p : Bits2) :
    (dr.withPhase p).img = dr.img := rfl

@[simp] theorem Drive.withPhase_buf (dr : Drive) (p : Bits2) :
    (dr.withPhase p).buf = dr.buf := rfl

@[simp] theorem Drive.withPhase_mech (dr : Drive) (p : Bits2) :
    (dr.withPhase p).mech = { dr.mech with phase := p } := rfl

@[simp] theorem Drive.withPhase_ctl (dr : Drive) (p : Bits2) :
    (dr.withPhase p).ctl = dr.ctl := rfl

@[simp] theorem Drive.withPhase_cpuIrq (dr : Drive) (p : Bits2) :
    (dr.withPhase p).cpuIrq = dr.cpuIrq := rfl

/-! ### `Drive.updateIrq` -/

@[simp] theorem Drive.updateIrq_devSel (dr : Drive) (P : Params) :
    (dr.updateIrq P).devSel = dr.devSel := rfl

@[simp] theorem Drive.updateIrq_powered (dr : Drive) (P : Params) :
    (dr.updateIrq P).powered = dr.powered := rfl

@[simp] theorem Drive.updateIrq_wp (dr : Drive) (P : Params) :
    (dr.updateIrq P).wp = dr.wp := rfl

@[simp] theorem Drive.updateIrq_img (dr : Drive) (P : Params) :
    (dr.updateIrq P).img = dr.img := rfl

@[simp] theorem Drive.updateIrq_buf (dr : Drive) (P : Params) :
    (dr.updateIrq P).buf = dr.buf := rfl

@[simp] theorem Drive.updateIrq_mech (dr : Drive) (P : Params) :
    (dr.updateIrq P).mech = dr.mech := rfl

@[simp] theorem Drive.updateIrq_ctl (dr : Drive) (P : Params) :
    (dr.updateIrq P).ctl = dr.ctl.updateIrq P := rfl

@[simp] theorem Drive.updateIrq_cpuIrq (dr : Drive) (P : Params) :
    (dr.updateIrq P).cpuIrq = (dr.ctl.updateIrq P).request := rfl

/-! ### `Drive.powerOff` -/

@[simp] theorem Drive.powerOff_devSel (dr : Drive) :
    (dr.powerOff).devSel = dr.devSel := rfl

@[simp] theorem Drive.powerOff_powered (dr : Drive) :
    (dr.powerOff).powered = false := rfl

@[simp] theorem Drive.powerOff_wp (dr : Drive) :
    (dr.powerOff).wp = dr.wp := rfl

@[simp] theorem Drive.powerOff_img (dr : Drive) :
    (dr.powerOff).img = dr.img := rfl

@[simp] theorem Drive.powerOff_buf (dr : Drive) :
    (dr.powerOff).buf = dr.buf := rfl

@[simp] theorem Drive.powerOff_mech (dr : Drive) :
    (dr.powerOff).mech = { dr.mech with
      motor := false, timerArmed := false, ffcount := 0, sync := false, zone := 0, phase := 0 } := rfl

@[simp] theorem Drive.powerOff_ctl (dr : Drive) :
    (dr.powerOff).ctl = dr.ctl := rfl

@[simp] theorem Drive.powerOff_cpuIrq (dr : Drive) :
    (dr.powerOff).cpuIrq = dr.cpuIrq := rfl

/-! ### `Drive.unmount` -/

@[simp] theorem Drive.unmount_devSel (dr : Drive) (P : Params) :
    (dr.unmount P).devSel = dr.devSel := rfl

@[simp] theorem Drive.unmount_powered (dr : Drive) (P : Params) :
    (dr.unmount P).powered = dr.powered := rfl

@[simp] theorem Drive.unmount_wp (dr : Drive) (P : Params) :
    (dr.unmount P).wp = false := rfl

@[simp] theorem Drive.unmount_img (dr : Drive) (P : Params) :
    (dr.unmount P).img = none := rfl

@[simp] theorem Drive.unmount_buf (dr : Drive) (P : Params) :
    (dr.unmount P).buf = dr.buf := rfl

@[simp] theorem Drive.unmount_mech (dr : Drive) (P : Params) :
    (dr.unmount P).mech = { dr.mech with
      ht := min dr.mech.ht (2 * P.noimgMaxTrack), motor := false, timerArmed := false } := rfl

@[simp] theorem Drive.unmount_ctl (dr : Drive) (P : Params) :
    (dr.unmount P).ctl = dr.ctl.clearRetry := rfl

@[simp] theorem Drive.unmount_cpuIrq (dr : Drive) (P : Params) :
    (dr.unmount P).cpuIrq = dr.cpuIrq := rfl

/-! ### `Drive.detectSync` -/

@[simp] theorem Drive.detectSync_devSel (dr : Drive) :
    (dr.detectSync).devSel = dr.devSel := rfl

@[simp] theorem Drive.detectSync_powered (dr : Drive) :
    (dr.detectSync).powered = dr.powered := rfl

@[simp] theorem Drive.detectSync_wp (dr : Drive) :
    (dr.detectSync).wp = dr.wp := rfl

@[simp] theorem Drive.detectSync_img (dr : Drive) :
    (dr.detectSync).img = dr.img := rfl

@[simp] theorem Drive.detectSync_buf (dr : Drive) :
    (dr.detectSync).buf = dr.buf := rfl

@[simp] theorem Drive.detectSync_mech (dr : Drive) :
    (dr.detectSync).mech = { dr.mech with
      ffcount := nextFf dr.mech.ffcount dr.headByte, sync := decide (nextFf dr.mech.ffcount dr.headByte = 5) } := rfl

@[simp] theorem Drive.detectSync_ctl (dr : Drive) :
    (dr.detectSync).ctl = dr.ctl := rfl

@[simp] theorem Drive.detectSync_cpuIrq (dr : Drive) :
    (dr.detectSync).cpuIrq = dr.cpuIrq := rfl

/-! ### `Drive.regen` writes the buffer and nothing else (R135) -/

@[simp] theorem Drive.regen_devSel (dr : Drive) (P : Params) : (dr.regen P).devSel = dr.devSel := by
  unfold Drive.regen; split <;> try rfl
  split <;> rfl

@[simp] theorem Drive.regen_powered (dr : Drive) (P : Params) : (dr.regen P).powered = dr.powered := by
  unfold Drive.regen; split <;> try rfl
  split <;> rfl

@[simp] theorem Drive.regen_wp (dr : Drive) (P : Params) : (dr.regen P).wp = dr.wp := by
  unfold Drive.regen; split <;> try rfl
  split <;> rfl

@[simp] theorem Drive.regen_img (dr : Drive) (P : Params) : (dr.regen P).img = dr.img := by
  unfold Drive.regen; split <;> try rfl
  split <;> rfl

@[simp] theorem Drive.regen_mech (dr : Drive) (P : Params) : (dr.regen P).mech = dr.mech := by
  unfold Drive.regen; split <;> try rfl
  split <;> rfl

@[simp] theorem Drive.regen_ctl (dr : Drive) (P : Params) : (dr.regen P).ctl = dr.ctl := by
  unfold Drive.regen; split <;> try rfl
  split <;> rfl

@[simp] theorem Drive.regen_cpuIrq (dr : Drive) (P : Params) : (dr.regen P).cpuIrq = dr.cpuIrq := by
  unfold Drive.regen; split <;> try rfl
  split <;> rfl

end Sys2Proof.Machine
end

