-- ==== Sys2Proof/Laws/Ops.lean ====
section
/-! SUPPORT. For each shared operation, once, everything it can do. -/

namespace Sys2Proof.Machine

-- One theorem after another: side by side each takes a thread and its stack.
set_option Elab.async false

/-! ### Completion -/

@[simp] theorem done_eq_next (s t : State) (r : Result) : done s r = .next t ↔ s.returns r = t := by
  simp [done]

theorem onDrive_next {s t : State} {d : Nat} {k : Drive → Out} (h : onDrive s d k = .next t) :
    ∃ dr, s.drives[d]? = some dr ∧ k dr = .next t := by
  unfold onDrive at h; split at h
  · cases h
  · exact ⟨_, ‹_›, h⟩

theorem onPowered_next {s t : State} {d : Nat} {k : Drive → Out} (h : onPowered s d k = .next t) :
    ∃ dr, s.drives[d]? = some dr ∧ dr.powered = true ∧ k dr = .next t := by
  obtain ⟨dr, h1, h2⟩ := onDrive_next h
  split at h2
  · exact ⟨dr, h1, ‹_›, h2⟩
  · cases h2

theorem onVia_next {s t : State} {d : Nat} {k : Drive → ViaChip → ViaChip → Out}
    (h : onVia s d k = .next t) :
    ∃ dr b dd, s.drives[d]? = some dr ∧ dr.ctl = .via b dd ∧ dr.powered = true ∧ k dr b dd = .next t := by
  obtain ⟨dr, h1, h2⟩ := onDrive_next h
  split at h2
  · cases h2
  · split at h2
    · exact ⟨dr, _, _, h1, ‹_›, ‹_›, h2⟩
    · cases h2

theorem onTpiDrive_next {s t : State} {d : Nat} {k : Drive → TpiChip → Out}
    (h : onTpiDrive s d k = .next t) :
    ∃ dr c, s.drives[d]? = some dr ∧ dr.ctl = .tpi c ∧ k dr c = .next t := by
  obtain ⟨dr, h1, h2⟩ := onDrive_next h
  split at h2
  · cases h2
  · exact ⟨dr, _, h1, ‹_›, h2⟩

theorem onTpi_next {s t : State} {d : Nat} {k : Drive → TpiChip → Out} (h : onTpi s d k = .next t) :
    ∃ dr c, s.drives[d]? = some dr ∧ dr.ctl = .tpi c ∧ dr.powered = true ∧ k dr c = .next t := by
  obtain ⟨dr, c, h1, h2, h3⟩ := onTpiDrive_next h
  split at h3
  · exact ⟨dr, c, h1, h2, ‹_›, h3⟩
  · cases h3

theorem onAgent_next {s t : State} {a : Agent} {k : Out} (h : onAgent s a k = .next t) :
    k = .next t ∧ ∀ d, a = .driveCpu d → ∃ dr, s.drives[d]? = some dr ∧ dr.powered = true := by
  cases a <;> simp only [onAgent] at h
  · obtain ⟨dr, h1, h2, h3⟩ := onPowered_next h
    exact ⟨h3, fun d hd => ⟨dr, by cases hd; exact h1, h2⟩⟩
  all_goals exact ⟨h, fun d hd => by cases hd⟩

theorem onParticipant_next {s t : State} {p : Nat} {k : Out} (h : onParticipant s p k = .next t) :
    k = .next t ∧ (p = 0 ∨ ∃ dr, s.drives[p - 1]? = some dr ∧ dr.powered = true) := by
  unfold onParticipant at h
  split at h
  · exact ⟨h, .inl ‹_›⟩
  · split at h
    · cases h
    · split at h
      · exact ⟨h, .inr ⟨_, ‹_›, ‹_›⟩⟩
      · cases h

/-! ### `IRQ.UPDATE` (R277) -/

/-- What `irqUpdate` does to a state in which drive `d` exists. -/
theorem irqUpdate_of_some {s : State} {d : Nat} {dr : Drive} (h : s.drives[d]? = some dr) :
    s.irqUpdate d =
      { s with
        drives := s.drives.modify d (Drive.updateIrq s.params)
        events := if (dr.updateIrq s.params).cpuIrq = dr.cpuIrq then s.events
          else .cpuIrq d (dr.updateIrq s.params).cpuIrq :: s.events
        retryArmed := (s.drives.modify d (Drive.updateIrq s.params)).any
          fun x => x.powered && x.ctl.anyRetry } := by
  unfold State.irqUpdate
  simp only [h]
  split <;> rfl

theorem irqUpdate_of_none {s : State} {d : Nat} (h : s.drives[d]? = none) : s.irqUpdate d = s := by
  simp [State.irqUpdate, h]

@[simp] theorem irqUpdate_params (s : State) (d : Nat) : (s.irqUpdate d).params = s.params := by
  cases h : s.drives[d]? with
  | none => rw [irqUpdate_of_none h]
  | some dr => rw [irqUpdate_of_some h]

@[simp] theorem irqUpdate_bus (s : State) (d : Nat) : (s.irqUpdate d).bus = s.bus := by
  cases h : s.drives[d]? with
  | none => rw [irqUpdate_of_none h]
  | some dr => rw [irqUpdate_of_some h]

@[simp] theorem irqUpdate_par (s : State) (d : Nat) : (s.irqUpdate d).par = s.par := by
  cases h : s.drives[d]? with
  | none => rw [irqUpdate_of_none h]
  | some dr => rw [irqUpdate_of_some h]

@[simp] theorem irqUpdate_requests (s : State) (d : Nat) : (s.irqUpdate d).requests = s.requests := by
  cases h : s.drives[d]? with
  | none => rw [irqUpdate_of_none h]
  | some dr => rw [irqUpdate_of_some h]

@[simp] theorem irqUpdate_result (s : State) (d : Nat) : (s.irqUpdate d).result = s.result := by
  cases h : s.drives[d]? with
  | none => rw [irqUpdate_of_none h]
  | some dr => rw [irqUpdate_of_some h]

@[simp] theorem irqUpdate_draws (s : State) (d : Nat) : (s.irqUpdate d).draws = s.draws := by
  cases h : s.drives[d]? with
  | none => rw [irqUpdate_of_none h]
  | some dr => rw [irqUpdate_of_some h]

theorem modify_of_none {α : Type} {l : List α} {d : Nat} (f : α → α) (h : l[d]? = none) :
    l.modify d f = l := by
  apply List.ext_getElem?
  intro n
  rw [List.getElem?_modify]
  split
  · subst_vars; simp [h]
  · simp

@[simp] theorem irqUpdate_drives (s : State) (d : Nat) :
    (s.irqUpdate d).drives = s.drives.modify d (Drive.updateIrq s.params) := by
  cases h : s.drives[d]? with
  | none => rw [irqUpdate_of_none h, modify_of_none _ h]
  | some dr => rw [irqUpdate_of_some h]

/-! ### Control-input flags (R221 to R223) -/

/-- A drive after its control-input flag of chip `c` is set to `v` and the outputs recomputed. -/
def Drive.setCa1 (P : Params) (c : ViaId) (v : Bool) (dr : Drive) : Drive :=
  Drive.updateIrq P { dr with ctl := dr.ctl.mapVia c fun ch => { ch with ca1Flag := v } }

@[simp] theorem setCa1_params (s : State) (d : Nat) (c : ViaId) (v : Bool) :
    (s.setCa1 d c v).params = s.params := by simp [State.setCa1]

@[simp] theorem setCa1_bus (s : State) (d : Nat) (c : ViaId) (v : Bool) :
    (s.setCa1 d c v).bus = s.bus := by simp [State.setCa1]

@[simp] theorem setCa1_par (s : State) (d : Nat) (c : ViaId) (v : Bool) :
    (s.setCa1 d c v).par = s.par := by simp [State.setCa1]

@[simp] theorem setCa1_requests (s : State) (d : Nat) (c : ViaId) (v : Bool) :
    (s.setCa1 d c v).requests = s.requests := by simp [State.setCa1]

@[simp] theorem setCa1_result (s : State) (d : Nat) (c : ViaId) (v : Bool) :
    (s.setCa1 d c v).result = s.result := by simp [State.setCa1]

@[simp] theorem setCa1_draws (s : State) (d : Nat) (c : ViaId) (v : Bool) :
    (s.setCa1 d c v).draws = s.draws := by simp [State.setCa1]

@[simp] theorem setCa1_drives (s : State) (d : Nat) (c : ViaId) (v : Bool) :
    (s.setCa1 d c v).drives = s.drives.modify d (Drive.setCa1 s.params c v) := by
  simp [State.setCa1, List.modify_modify_eq]; rfl

/-! ### Notifications (R165) and `BUS.SET` (R161) -/

/-- What a notification of line `l` at `v` does to the drive it reaches (R165, R221). -/
def Drive.notified (P : Params) (l : Line) (v : Bool) (dr : Drive) : Drive :=
  match dr.ctl with
  | .via b _ =>
    if dr.powered = true ∧ l = .atn ∧ atnEdgeActive P b v = true then dr.setCa1 P .viab true else dr
  | .tpi _ => dr

theorem notify_cases (s : State) (q : Nat) (l : Line) (v : Bool) :
    (s.notify q l v).params = s.params ∧ (s.notify q l v).bus = s.bus ∧
    (s.notify q l v).par = s.par ∧ (s.notify q l v).requests = s.requests ∧
    (s.notify q l v).result = s.result ∧ (s.notify q l v).draws = s.draws := by
  unfold State.notify
  split
  · simp
  · split
    · simp
    · split
      · split
        · split <;> simp
        · simp
      · simp

@[simp] theorem notify_params (s : State) (q : Nat) (l : Line) (v : Bool) :
    (s.notify q l v).params = s.params := (notify_cases s q l v).1

@[simp] theorem notify_bus (s : State) (q : Nat) (l : Line) (v : Bool) :
    (s.notify q l v).bus = s.bus := (notify_cases s q l v).2.1

@[simp] theorem notify_par (s : State) (q : Nat) (l : Line) (v : Bool) :
    (s.notify q l v).par = s.par := (notify_cases s q l v).2.2.1

@[simp] theorem notify_requests (s : State) (q : Nat) (l : Line) (v : Bool) :
    (s.notify q l v).requests = s.requests := (notify_cases s q l v).2.2.2.1

@[simp] theorem notify_result (s : State) (q : Nat) (l : Line) (v : Bool) :
    (s.notify q l v).result = s.result := (notify_cases s q l v).2.2.2.2.1

@[simp] theorem notify_draws (s : State) (q : Nat) (l : Line) (v : Bool) :
    (s.notify q l v).draws = s.draws := (notify_cases s q l v).2.2.2.2.2

theorem modify_congr_at {α : Type} {l : List α} {d : Nat} {x : α} {f g : α → α}
    (h : l[d]? = some x) (hfg : f x = g x) : l.modify d f = l.modify d g := by
  apply List.ext_getElem?
  intro n
  rw [List.getElem?_modify, List.getElem?_modify]
  by_cases hn : d = n
  · subst hn; simp [h, hfg]
  · simp [hn]

theorem modify_id_at {α : Type} {l : List α} {d : Nat} {x : α} {f : α → α}
    (h : l[d]? = some x) (hf : f x = x) : l.modify d f = l := by
  rw [modify_congr_at (g := id) h hf]; simp

@[simp] theorem notify_drives_host (s : State) (l : Line) (v : Bool) :
    (s.notify 0 l v).drives = s.drives := by simp [State.notify]

@[simp] theorem notify_drives (s : State) (d : Nat) (l : Line) (v : Bool) :
    (s.notify (d + 1) l v).drives = s.drives.modify d (Drive.notified s.params l v) := by
  unfold State.notify
  rw [if_neg (by omega)]
  simp only [Nat.add_sub_cancel]
  cases h : s.drives[d]? with
  | none => simp [modify_of_none _ h]
  | some dr =>
    simp only
    split
    · rename_i hp
      split
      · rename_i b dd hc
        split
        · rename_i hcond
          simp only [setCa1_drives, State.emit_drives, State.emit_params]
          exact modify_congr_at h (by simp [Drive.notified, hc, hp, hcond])
        · rename_i hcond
          simp only [State.emit_drives]
          refine (modify_id_at h ?_).symm
          simp only [Drive.notified, hc]
          rw [if_neg (by simpa [hp] using hcond)]
      · rename_i t hc
        simp only [State.emit_drives]
        exact (modify_id_at h (by simp [Drive.notified, hc])).symm
    · rename_i hp
      refine (modify_id_at h ?_).symm
      simp only [Drive.notified]
      split
      · rw [if_neg (by simp [hp])]
      · rfl

/-- A fold of notifications leaves everything but the drives, the retry timer and the events. -/
theorem foldl_notify_cases (qs : List Nat) (s : State) (l : Line) (v : Bool) :
    let t := qs.foldl (fun s q => s.notify q l v) s
    t.params = s.params ∧ t.bus = s.bus ∧ t.par = s.par ∧ t.requests = s.requests ∧
      t.result = s.result ∧ t.draws = s.draws := by
  induction qs generalizing s with
  | nil => simp
  | cons q qs ih =>
    obtain ⟨h1, h2, h3, h4, h5, h6⟩ := ih (s.notify q l v)
    simp only [notify_params, notify_bus, notify_par, notify_requests, notify_result, notify_draws] at *
    exact ⟨h1, h2, h3, h4, h5, h6⟩

@[simp] theorem notifyAll_params (s : State) (l : Line) (v : Bool) :
    (s.notifyAll l v).params = s.params := (foldl_notify_cases _ s l v).1

@[simp] theorem notifyAll_bus (s : State) (l : Line) (v : Bool) :
    (s.notifyAll l v).bus = s.bus := (foldl_notify_cases _ s l v).2.1

@[simp] theorem notifyAll_par (s : State) (l : Line) (v : Bool) :
    (s.notifyAll l v).par = s.par := (foldl_notify_cases _ s l v).2.2.1

@[simp] theorem notifyAll_requests (s : State) (l : Line) (v : Bool) :
    (s.notifyAll l v).requests = s.requests := (foldl_notify_cases _ s l v).2.2.2.1

@[simp] theorem notifyAll_result (s : State) (l : Line) (v : Bool) :
    (s.notifyAll l v).result = s.result := (foldl_notify_cases _ s l v).2.2.2.2.1

@[simp] theorem notifyAll_draws (s : State) (l : Line) (v : Bool) :
    (s.notifyAll l v).draws = s.draws := (foldl_notify_cases _ s l v).2.2.2.2.2

/-- Notifying participants `0 .. n` reaches drives `0 .. n-1`, each once. -/
theorem foldl_notify_drives (n : Nat) (s : State) (l : Line) (v : Bool) (d : Nat) :
    ((List.range n).foldl (fun s q => s.notify q l v) s).drives[d]? =
      if d + 1 < n then s.drives[d]?.map (Drive.notified s.params l v) else s.drives[d]? := by
  induction n with
  | zero => simp
  | succ n ih =>
    rw [List.range_succ, List.foldl_append, List.foldl_cons, List.foldl_nil]
    cases n with
    | zero => simp
    | succ m =>
      rw [notify_drives, List.getElem?_modify, ih]
      rw [(foldl_notify_cases (List.range (m + 1)) s l v).1]
      by_cases h : m = d
      · subst h; simp
      · by_cases h2 : d < m
        · simp only [if_neg h]
          rw [if_pos (by omega), if_pos (by omega)]; simp
        · simp only [if_neg h]
          rw [if_neg (by omega), if_neg (by omega)]; simp

/-- Every drive is notified, when there is one participant more than drives (R161). -/
theorem notifyAll_drives (s : State) (l : Line) (v : Bool)
    (h : s.bus.latches.length = s.drives.length + 1) :
    (s.notifyAll l v).drives = s.drives.map (Drive.notified s.params l v) := by
  apply List.ext_getElem?
  intro d
  unfold State.notifyAll
  rw [foldl_notify_drives, List.getElem?_map, h]
  by_cases hd : d < s.drives.length
  · rw [if_pos (by omega)]
  · rw [if_neg (by omega)]
    simp [List.getElem?_eq_none (by omega : s.drives.length ≤ d)]

theorem notified_of_ne_atn {l : Line} (h : l ≠ .atn) (P : Params) (v : Bool) (dr : Drive) :
    Drive.notified P l v dr = dr := by
  unfold Drive.notified; split <;> simp [h]

/-- Everything `BUS.SET` can do (R161, R162): the latch is stored; the line is recomputed; where it
changed, every participant is notified. -/
theorem busSet_cases (s : State) (p : Nat) (l : Line) (v : Bool) :
    ((s.setLatch p l v).bus.wiredAnd l = s.bus.line.get l ∧ s.busSet p l v = s.setLatch p l v) ∨
    ((s.setLatch p l v).bus.wiredAnd l ≠ s.bus.line.get l ∧
      s.busSet p l v = ((s.setLatch p l v).setLine l ((s.setLatch p l v).bus.wiredAnd l)).notifyAll l
        ((s.setLatch p l v).bus.wiredAnd l)) := by
  unfold State.busSet
  by_cases h : (s.setLatch p l v).bus.wiredAnd l = s.bus.line.get l
  · exact .inl ⟨h, if_pos h⟩
  · exact .inr ⟨h, if_neg h⟩

@[simp] theorem Lines.get_set_self (b : Lines) (l : Line) (v : Bool) : (b.set l v).get l = v := by
  cases l <;> rfl

theorem Lines.get_set_ne (b : Lines) {l l' : Line} (v : Bool) (h : l' ≠ l) :
    (b.set l v).get l' = b.get l' := by
  cases l <;> cases l' <;> simp_all [Lines.set, Lines.get]

theorem Lines.set_get_self (b : Lines) (l : Line) : b.set l (b.get l) = b := by
  cases l <;> rfl

@[simp] theorem busSet_params (s : State) (p : Nat) (l : Line) (v : Bool) :
    (s.busSet p l v).params = s.params := by
  rcases busSet_cases s p l v with ⟨_, h⟩ | ⟨_, h⟩ <;> simp [h]

@[simp] theorem busSet_par (s : State) (p : Nat) (l : Line) (v : Bool) :
    (s.busSet p l v).par = s.par := by
  rcases busSet_cases s p l v with ⟨_, h⟩ | ⟨_, h⟩ <;> simp [h]

@[simp] theorem busSet_requests (s : State) (p : Nat) (l : Line) (v : Bool) :
    (s.busSet p l v).requests = s.requests := by
  rcases busSet_cases s p l v with ⟨_, h⟩ | ⟨_, h⟩ <;> simp [h]

@[simp] theorem busSet_result (s : State) (p : Nat) (l : Line) (v : Bool) :
    (s.busSet p l v).result = s.result := by
  rcases busSet_cases s p l v with ⟨_, h⟩ | ⟨_, h⟩ <;> simp [h]

@[simp] theorem busSet_draws (s : State) (p : Nat) (l : Line) (v : Bool) :
    (s.busSet p l v).draws = s.draws := by
  rcases busSet_cases s p l v with ⟨_, h⟩ | ⟨_, h⟩ <;> simp [h]

@[simp] theorem busSet_latches (s : State) (p : Nat) (l : Line) (v : Bool) :
    (s.busSet p l v).bus.latches = s.bus.latches.modify p fun x => x.set l v := by
  rcases busSet_cases s p l v with ⟨_, h⟩ | ⟨_, h⟩ <;> simp [h]

/-- The line after `BUS.SET` is the AND of the latches after it; the other lines stand (R162). -/
@[simp] theorem busSet_line (s : State) (p : Nat) (l : Line) (v : Bool) :
    (s.busSet p l v).bus.line = s.bus.line.set l ((s.setLatch p l v).bus.wiredAnd l) := by
  rcases busSet_cases s p l v with ⟨h1, h⟩ | ⟨_, h⟩
  · rw [h, h1, Lines.set_get_self]; rfl
  · simp [h]

/-- What `BUS.SET` does to the drives: nothing but what the notifications do, and those only where
the line changed. -/
theorem busSet_drives (s : State) (p : Nat) (l : Line) (v : Bool)
    (hs : s.bus.latches.length = s.drives.length + 1) :
    (s.busSet p l v).drives =
      if (s.setLatch p l v).bus.wiredAnd l = s.bus.line.get l then s.drives
      else s.drives.map (Drive.notified s.params l ((s.setLatch p l v).bus.wiredAnd l)) := by
  rcases busSet_cases s p l v with ⟨h1, h⟩ | ⟨h1, h⟩
  · rw [h, if_pos h1]; rfl
  · rw [h, if_neg h1, notifyAll_drives]
    · rfl
    · simpa using hs

/-- `BUS.SET` keeps the bus consistent (R163). -/
theorem busSet_consistent {s : State} (h : BusConsistent s.bus) (p : Nat) (l : Line) (v : Bool) :
    BusConsistent (s.busSet p l v).bus := by
  intro l'
  rw [busSet_line]
  by_cases hl : l' = l
  · subst hl
    rw [Lines.get_set_self]
    simp [Bus.wiredAnd]
  · rw [Lines.get_set_ne _ _ hl, h l']
    unfold Bus.wiredAnd
    rw [busSet_latches]
    have key : ∀ (ls : List Lines) (p : Nat),
        (ls.modify p fun x => x.set l v).all (fun p => p.get l') = ls.all fun p => p.get l' := by
      intro ls
      induction ls with
      | nil => intro p; cases p <;> simp
      | cons a as ih =>
        intro p
        cases p with
        | zero => simp [Lines.get_set_ne _ _ hl]
        | succ p => simp [ih]
    exact (key _ _).symm

end Sys2Proof.Machine
end

