-- ==== Sys2Proof/Laws/Agents.lean ====
section
/-! SUPPORT. Which variant a drive has, and whose moves the operations of a chip are (R8, R286). -/

set_option Elab.async false

namespace Sys2Proof.Machine

theorem hasVia_iff {s : State} {d : Nat} :
    s.hasVia d = true ↔ ∃ dr b dd, s.drives[d]? = some dr ∧ dr.ctl = .via b dd := by
  unfold State.hasVia
  cases h : s.drives[d]? with
  | none => simp
  | some dr => cases h' : dr.ctl <;> simp [h']

theorem hasTpi_iff {s : State} {d : Nat} :
    s.hasTpi d = true ↔ ∃ dr c, s.drives[d]? = some dr ∧ dr.ctl = .tpi c := by
  unfold State.hasTpi
  cases h : s.drives[d]? with
  | none => simp
  | some dr => cases h' : dr.ctl <;> simp [h']

theorem viaCpu_iff {s : State} {a : Agent} {d : Nat} :
    s.viaCpu a d = true ↔ a = .driveCpu d ∧ s.hasVia d = true := by
  simp [State.viaCpu]

theorem tpiCpu_iff {s : State} {a : Agent} {d : Nat} :
    s.tpiCpu a d = true ↔ a = .driveCpu d ∧ s.hasTpi d = true := by
  simp [State.tpiCpu]

/-- The domains depend on the number of drives and their variants alone. -/
theorem performs_congr {s t : State} (hl : t.drives.length = s.drives.length)
    (hv : ∀ d, t.hasVia d = s.hasVia d) (ht : ∀ d, t.hasTpi d = s.hasTpi d) (a : Agent) (i : Instr) :
    t.performs a i = s.performs a i := by
  have hp : t.participant a = s.participant a := by cases a <;> simp [State.participant, hl]
  cases i <;> simp [State.performs, State.viaCpu, State.tpiCpu, hv, ht, hp]

end Sys2Proof.Machine
end

