-- ==== Sys2Proof/Laws/Codec.lean ====
section
/-! SUPPORT. Lengths of the encoded groups and buffers, and the sector counts of a format. -/

namespace Sys2Proof.Machine

-- One theorem after another: side by side each takes a thread and its stack.
set_option Elab.async false

/-- In a well-formed format every sector count is positive (R142). -/
theorem counts_pos {P : Params} (hP : P.wf = true) (f : Format) : ∀ n ∈ FormatInfo.counts (P.formats.get f), 0 < n := by
  have : (P.formats.get f).wf = true := by
    unfold Params.wf at hP; simp only [Bool.and_eq_true] at hP
    cases f <;> simp [Formats.get] <;> simp_all
  intro n hn
  unfold FormatInfo.counts at hn
  simp only [FormatInfo.wf, Bool.and_eq_true, List.all_eq_true, decide_eq_true_eq] at this
  rw [List.mem_flatMap] at hn
  obtain ⟨z, hz, hn⟩ := hn
  rw [List.mem_replicate] at hn
  rw [hn.2]; exact this.2 z hz

/-- A format has at least one track. -/
theorem maxTrack_pos {P : Params} (hP : P.wf = true) (f : Format) : 1 ≤ maxTrackOf P f := by
  have : (P.formats.get f).wf = true := by
    unfold Params.wf at hP; simp only [Bool.and_eq_true] at hP
    cases f <;> simp [Formats.get] <;> simp_all
  simp only [FormatInfo.wf, Bool.and_eq_true, List.any_eq_true, decide_eq_true_eq] at this
  obtain ⟨z, hz, hzt⟩ := this.1
  unfold maxTrackOf FormatInfo.counts
  rw [List.length_flatMap]
  have : (List.replicate z.tracks z.sectors).length ∈ (P.formats.get f).zones.map (fun z => (List.replicate z.tracks z.sectors).length) := List.mem_map_of_mem (f := fun z : Zone => (List.replicate z.tracks z.sectors).length) hz
  have := List.single_le_sum (by simp) _ this
  simp at this
  simp; omega

/-- Every track of a format has at least one sector. -/
theorem spt_pos {P : Params} (hP : P.wf = true) (f : Format) {t} (h1 : 1 ≤ t) (h2 : t ≤ maxTrackOf P f) : 0 < sptOf P f t := by
  unfold sptOf
  rw [if_neg (by omega)]
  unfold maxTrackOf at h2
  have hlt : t - 1 < (FormatInfo.counts (P.formats.get f)).length := by omega
  rw [List.getD_eq_getElem?_getD, List.getElem?_eq_getElem hlt]
  exact counts_pos hP f _ (List.getElem_mem hlt)

/-- Four bytes encode to five. -/
theorem encodeGroups_length (tbl) : ∀ (n : Nat) (l : List Byte), l.length = 4 * n → (encodeGroups tbl l).length = 5 * n := by
  intro n
  induction n with
  | zero => intro l h; simp at h; subst h; rfl
  | succ n ih =>
    intro l h
    match l, h with
    | a :: b :: c :: e :: rest, h =>
      simp only [encodeGroups, List.length_append]
      rw [ih rest (by simp at h; omega)]
      simp [encode4to5]; omega

/-- R100: a sector buffer has 365 bytes. -/
theorem encodeSector_length {P : Params} (hP : P.wf = true) (t s a b) (data : List Byte) (hd : data.length = 256) :
    (encodeSector P t s a b data).length = 365 := by
  have hg : P.gapGroup.length = 5 := by
    unfold Params.wf at hP; simp only [Bool.and_eq_true, beq_iff_eq] at hP; simp_all
  unfold encodeSector
  simp only [List.length_append, hg]
  rw [encodeGroups_length _ 2 _ (by simp [headerBlock]), encodeGroups_length _ 65 _ (by simp [dataBlock, hd])]
  simp [syncRun]

end Sys2Proof.Machine
end

