-- ==== Sys2Proof/Laws/Mech.lean ====
section
/-! SUPPORT. What the mechanism's shared operations keep (R135, R187, R188), and the shared parts of
the interrupt outputs (R275, R277) and of the acknowledge line (R260). -/

namespace Sys2Proof.Machine

-- One theorem after another: side by side each takes a thread and its stack.
set_option Elab.async false

/-- R135: regeneration keeps the buffer length. -/
theorem regen_bufLength {P : Params} (hP : P.wf = true) (dr : Drive) (h : dr.buf.length = 365) : (dr.regen P).buf.length = 365 := by
  unfold Drive.regen
  split
  · exact h
  · split
    · exact h
    · exact encodeSector_length hP _ _ _ _ _ (by simp [Image.sectorData])

/-- R135: regeneration keeps the mechanism invariant. -/
theorem regen_mech {P : Params} (hP : P.wf = true) {dr : Drive} (h : dr.MechSound P) : (dr.regen P).MechSound P := by
  refine ⟨regen_bufLength hP dr h.1, ?_, ?_, ?_, ?_, ?_, ?_⟩
  · simpa using h.2
  · simpa using h.3
  · simpa [Drive.maxTrack] using h.4
  · simpa [Drive.curTrack] using h.5
  · simpa using h.6
  · simpa using h.7

/-- A sound drive has at least one track to be on (R31). -/
theorem maxTrack_eq {P} {dr : Drive} (hi : ∀ im, dr.img = some im → im.Sound P) (hP : P.wf = true) : 1 ≤ dr.maxTrack P := by
  unfold Drive.maxTrack
  split
  · unfold Params.wf at hP; simp only [Bool.and_eq_true, decide_eq_true_eq] at hP; exact hP.2
  · rename_i im h
    rw [(hi im h).maxTrack]; exact maxTrack_pos hP _

/-- R187: the head stays in its range. -/
theorem steppedHt_range {m ht old new} (h1 : 2 ≤ ht) (h2 : ht ≤ 2 * m) : 2 ≤ steppedHt m ht old new ∧ steppedHt m ht old new ≤ 2 * m := by
  unfold steppedHt; split
  · omega
  · split <;> omega

/-- R188: moving the head inside its range keeps the mechanism invariant. -/
theorem moveHead_mech {P : Params} (hP : P.wf = true) {dr : Drive} (hi : ∀ im, dr.img = some im → im.Sound P)
   (h : dr.MechSound P) {n} (h2 : 2 ≤ n) (h3 : n ≤ 2 * dr.maxTrack P) : (dr.moveHead P n).MechSound P := by
  unfold Drive.moveHead
  split
  · rename_i he
    refine ⟨h.1, h.2, h2, h3, ?_, h.6, h.7⟩
    intro im him
    have := h.5 im him
    simpa [Drive.curTrack, he] using this
  · split
    · rename_i hn
      apply regen_mech hP
      exact ⟨h.1, h.2, h2, h3, by intro im him; simp [hn] at him, h.6, h.7⟩
    · rename_i im him
      apply regen_mech hP
      refine ⟨h.1, h.2, h2, h3, ?_, h.6, h.7⟩
      intro im' him'
      simp [him] at him'; subst him'
      simp only [Drive.withSector, Drive.withHt, Drive.curTrack]
      apply Nat.mod_lt
      apply spt_pos hP
      · omega
      · have := (hi im him).maxTrack
        unfold Drive.maxTrack at h3; rw [him] at h3; simp at h3; rw [← this]; omega

/-- R188: what moving the head never touches. -/
theorem moveHead_rest (P : Params) (dr : Drive) (n) :
   (dr.moveHead P n).devSel = dr.devSel ∧ (dr.moveHead P n).powered = dr.powered ∧ (dr.moveHead P n).wp = dr.wp ∧
   (dr.moveHead P n).img = dr.img ∧ (dr.moveHead P n).ctl = dr.ctl ∧ (dr.moveHead P n).cpuIrq = dr.cpuIrq ∧
   (dr.moveHead P n).mech.motor = dr.mech.motor ∧ (dr.moveHead P n).mech.timerArmed = dr.mech.timerArmed
   ∧ (dr.moveHead P n).mech.timerPeriod = dr.mech.timerPeriod ∧ (dr.moveHead P n).mech.zone = dr.mech.zone := by
  unfold Drive.moveHead
  split
  · simp
  · split <;> simp

/-- The output function reads no output. -/
@[simp] theorem viaIrqFn_latch (P) (c : ViaChip) (n o) : viaIrqFn P (c.latchIrq n o) = viaIrqFn P c := by
  unfold ViaChip.latchIrq; split <;> rfl

/-- The output function reads no output. -/
@[simp] theorem tpiIrqFn_latch (P) (c : TpiChip) (n) : tpiIrqFn P (c.latchIrq n) = tpiIrqFn P c := by
  unfold TpiChip.latchIrq; split <;> rfl

/-- The stored output is the new one. -/
@[simp] theorem latch_chipIrq (c : ViaChip) (n o) : (c.latchIrq n o).chipIrq = n := by
  unfold ViaChip.latchIrq; split <;> simp_all

/-- The stored output is the new one. -/
@[simp] theorem tlatch_chipIrq (c : TpiChip) (n) : (c.latchIrq n).chipIrq = n := by
  unfold TpiChip.latchIrq; split <;> simp_all

/-- R277: a chip that waits still requests. -/
theorem updateIrq_retryReq (P) (c : Controller) (h : c.RetryRequests) : (c.updateIrq P).RetryRequests := by
  cases c with
  | via b dd =>
    obtain ⟨h1, h2⟩ := h
    constructor
    · show (b.latchIrq _ _).irqRetry = true → (b.latchIrq _ _).chipIrq = true
      unfold ViaChip.latchIrq; split <;> simp_all
    · show (dd.latchIrq _ _).irqRetry = true → (dd.latchIrq _ _).chipIrq = true
      unfold ViaChip.latchIrq; split <;> simp_all
  | tpi t =>
    show (t.latchIrq _).irqRetry = true → (t.latchIrq _).chipIrq = true
    unfold TpiChip.latchIrq; split <;> simp_all [Controller.RetryRequests]

/-- R34 is kept. -/
theorem updateIrq_air (P) (c : Controller) (h : c.AirClean) : (c.updateIrq P).AirClean := by
  cases c with
  | via => trivial
  | tpi t => show (t.latchIrq _).air.extractLsb' 5 3 = 0; unfold TpiChip.latchIrq; split <;> exact h

/-- R260: what `apply_ack` never touches. -/
theorem applyAck_keeps (P) (t : TpiChip) : (t.applyAck P).cr = t.cr ∧ (t.applyAck P).air = t.air ∧ (t.applyAck P).chipIrq = t.chipIrq ∧ (t.applyAck P).irqRetry = t.irqRetry := by
  unfold TpiChip.applyAck; split <;> simp

end Sys2Proof.Machine
end

