-- ==== Sys2Proof/Laws/Memory.lean ====
section
/-! SUPPORT. The image memory: what a write lists, that every memory operation keeps the canonical
form, and what a read gives after a write. -/

namespace Sys2Proof.Machine

-- One theorem after another: side by side each takes a thread and its stack.
set_option Elab.async false

/-- What a write can list: an entry that stood before, or the written byte if it is not zero. -/
theorem Memory.mem_write {m : Memory} {a : Nat} {v : Byte} {x : Host.Cell}
    (hx : x ∈ Memory.write m a v) : x ∈ m ∨ (x = (a, v) ∧ v ≠ 0) := by
  induction m with
  | nil => unfold Memory.write at hx; split at hx <;> simp_all
  | cons p m ih =>
    obtain ⟨k, y⟩ := p
    unfold Memory.write at hx
    split at hx
    · split at hx <;> simp_all; tauto
    · split at hx
      · split at hx <;> simp_all; tauto
      · rcases List.mem_cons.1 hx with h | h
        · simp [h]
        · rcases ih h with h | h
          · simp [h]
          · exact .inr h

/-- A write keeps the canonical form. -/
theorem Memory.write_wf {m : Memory} (h : Memory.wf m) (a : Nat) (v : Byte) :
    Memory.wf (Memory.write m a v) := by
  refine ⟨?_, ?_⟩
  · induction m with
    | nil => unfold Memory.write; split <;> simp
    | cons p m ih =>
      obtain ⟨k, y⟩ := p
      obtain ⟨h1, h2⟩ := h
      rw [List.pairwise_cons] at h1
      have ih' := ih ⟨h1.2, fun x hx => h2 x (List.mem_cons_of_mem _ hx)⟩
      unfold Memory.write
      split
      · split
        · exact List.pairwise_cons.2 h1
        · refine List.pairwise_cons.2 ⟨?_, List.pairwise_cons.2 h1⟩
          intro x hx
          rcases List.mem_cons.1 hx with rfl | hx
          · assumption
          · have := h1.1 x hx; simp at *; omega
      · split
        · rename_i hak
          split
          · exact h1.2
          · refine List.pairwise_cons.2 ⟨?_, h1.2⟩
            intro x hx; subst hak; exact h1.1 x hx
        · refine List.pairwise_cons.2 ⟨?_, ih'⟩
          intro x hx
          rcases Memory.mem_write hx with hx | ⟨rfl, _⟩
          · exact h1.1 x hx
          · simp; omega
  · intro x hx
    rcases Memory.mem_write hx with hx | ⟨rfl, hv⟩
    · exact h.2 x hx
    · exact hv

/-- An address below every listed one reads `0x00`. -/
theorem Memory.read_of_lt {m : Memory} {a : Nat} (h : ∀ x ∈ m, a < x.1) : Memory.read m a = 0 := by
  induction m with
  | nil => rfl
  | cons p m ih =>
    obtain ⟨k, y⟩ := p
    have hk := h (k, y) (by simp)
    unfold Memory.read
    rw [if_neg (by simp at hk; omega)]
    exact ih fun x hx => h x (List.mem_cons_of_mem _ hx)

/-- A read after a write to the same address gives the written byte. -/
theorem Memory.read_write_self {m : Memory} (h : Memory.wf m) (a : Nat) (v : Byte) :
    Memory.read (Memory.write m a v) a = v := by
  induction m with
  | nil => unfold Memory.write; split <;> simp_all [Memory.read]
  | cons p m ih =>
    obtain ⟨k, y⟩ := p
    obtain ⟨h1, h2⟩ := h
    rw [List.pairwise_cons] at h1
    have ih' := ih ⟨h1.2, fun x hx => h2 x (List.mem_cons_of_mem _ hx)⟩
    unfold Memory.write
    split
    · rename_i hlt
      split
      · rename_i hv
        rw [hv]
        apply Memory.read_of_lt
        intro x hx
        rcases List.mem_cons.1 hx with rfl | hx
        · exact hlt
        · have := h1.1 x hx; simp at this; omega
      · simp [Memory.read]
    · split
      · rename_i hak
        split
        · rename_i hv
          rw [hv]
          exact Memory.read_of_lt fun x hx => by rw [hak]; exact h1.1 x hx
        · simp [Memory.read]
      · rename_i hne
        unfold Memory.read
        rw [if_neg (by omega)]
        exact ih'

/-- A write leaves every other address alone. -/
theorem Memory.read_write_ne (m : Memory) {a b : Nat} (v : Byte) (hne : b ≠ a) :
    Memory.read (Memory.write m a v) b = Memory.read m b := by
  induction m with
  | nil => unfold Memory.write; split <;> simp [Memory.read, Ne.symm hne]
  | cons p m ih =>
    obtain ⟨k, y⟩ := p
    unfold Memory.write
    split
    · split
      · rfl
      · conv_lhs => unfold Memory.read
        rw [if_neg (Ne.symm hne)]
    · split
      · rename_i hak
        subst hak
        split
        · conv_rhs => unfold Memory.read
          rw [if_neg (Ne.symm hne)]
        · simp [Memory.read, Ne.symm hne]
      · unfold Memory.read
        rw [ih]

/-- A mounted buffer is in canonical form and lists nothing outside its length. -/
theorem Memory.ofCells_wf (cells : List Host.Cell) (len : Nat) :
    Memory.wf (Memory.ofCells cells len) ∧ ∀ x ∈ Memory.ofCells cells len, x.1 < len := by
  unfold Memory.ofCells
  suffices ∀ m : Memory, (Memory.wf m ∧ ∀ x ∈ m, x.1 < len) →
      Memory.wf (cells.foldl (fun m c => if c.1 < len then Memory.write m c.1 c.2 else m) m) ∧
        ∀ x ∈ cells.foldl (fun m c => if c.1 < len then Memory.write m c.1 c.2 else m) m,
          x.1 < len by
    exact this [] ⟨⟨by simp, by simp⟩, by simp⟩
  induction cells with
  | nil => intro m h; exact h
  | cons c cs ih =>
    intro m h
    simp only [List.foldl_cons]
    apply ih
    split
    · refine ⟨Memory.write_wf h.1 _ _, ?_⟩
      intro x hx
      rcases Memory.mem_write hx with hx | ⟨rfl, _⟩
      · exact h.2 x hx
      · assumption
    · exact h

/-- The image a mount makes is sound (R192, R139). -/
theorem mountImage_sound (P : Params) (f : Format) (cells : List Host.Cell) (len : Nat) :
    (mountImage P f cells len).Sound P :=
  ⟨(Memory.ofCells_wf cells len).1, (Memory.ofCells_wf cells len).2, rfl, rfl⟩

/-- Right after reset every image memory has the canonical form: no drive holds an image. -/
theorem reset_memory_wf : ∀ dr ∈ State.reset.drives, ∀ im, dr.img = some im → Memory.wf im.bytes := by
  intro dr h im him
  simp only [State.reset, List.mem_cons, List.not_mem_nil, or_false] at h
  rcases h with rfl | rfl <;> cases him

end Sys2Proof.Machine
end

