-- ==== Sys2Proof/Laws/PerInstr.lean ====
section
/-! SUPPORT. For every constructor of `Instr`: the tag the encoder writes lies in the constructor's
row of `spec/opcode_table.json` (R91 to R93). -/

namespace Sys2Proof.Laws

-- One theorem after another: side by side each takes a thread and its stack.
set_option Elab.async false

/-- The mask and the match value of the constructor's row of the opcode table. -/
def tableRow : Instr → Byte × Byte
  | .viabRdPb _ => (0xFF, 0x00)
  | .viabRdPa _ => (0xFF, 0x01)
  | .viabWrPb _ _ => (0xFF, 0x08)
  | .viabWrPa _ _ => (0xFF, 0x09)
  | .viadRdPb _ => (0xFF, 0x10)
  | .viadRdPa _ => (0xFF, 0x11)
  | .viadWrPb _ _ => (0xFF, 0x18)
  | .viadWrPa _ _ => (0xFF, 0x19)
  | .viaRdDdrb _ _ => (0xEF, 0x02)
  | .viaRdDdra _ _ => (0xEF, 0x03)
  | .viaWrDdrb _ _ _ => (0xEF, 0x0A)
  | .viaWrDdra _ _ _ => (0xEF, 0x0B)
  | .viaRdCt _ _ _ => (0xEC, 0x04)
  | .viaWrCt _ _ _ _ => (0xEC, 0x0C)
  | .tpiRdPa _ => (0xFF, 0x20)
  | .tpiRdPb _ => (0xFF, 0x21)
  | .tpiRdPc _ => (0xFF, 0x22)
  | .tpiRdDdra _ => (0xFF, 0x23)
  | .tpiRdDdrb _ => (0xFF, 0x24)
  | .tpiRdDdrc _ => (0xFF, 0x25)
  | .tpiRdCr _ => (0xFF, 0x26)
  | .tpiRdAir _ => (0xFF, 0x27)
  | .tpiWrPa _ _ => (0xFF, 0x28)
  | .tpiWrPb _ _ => (0xFF, 0x29)
  | .tpiWrPc _ _ => (0xFF, 0x2A)
  | .tpiWrDdra _ _ => (0xFF, 0x2B)
  | .tpiWrDdrb _ _ => (0xFF, 0x2C)
  | .tpiWrDdrc _ _ => (0xFF, 0x2D)
  | .tpiWrCr _ _ => (0xFF, 0x2E)
  | .tpiWrAir _ _ => (0xFF, 0x2F)
  | .sysReset => (0xFF, 0x80)
  | .sysPwron _ => (0xFF, 0x81)
  | .sysPwroff _ => (0xFF, 0x82)
  | .sysMount _ _ _ _ _ => (0xFF, 0x83)
  | .sysUnmount _ => (0xFF, 0x84)
  | .mechTick _ => (0xFF, 0x85)
  | .mechCtrl _ _ => (0xFF, 0x86)
  | .irqRetry => (0xFF, 0x87)
  | .busSet _ _ _ => (0xFF, 0x88)
  | .busGet _ => (0xFF, 0x89)
  | .parEnable _ => (0xFF, 0x8A)
  | .parWrdata _ => (0xFF, 0x8B)
  | .parRddata => (0xFF, 0x8C)
  | .parWrack _ => (0xFF, 0x8D)
  | .parRdack => (0xFF, 0x8E)
  | .tpiIrqin _ _ _ => (0xFF, 0x8F)
  | .tpiHostwr _ _ => (0xFF, 0x90)
  | .tpiHostrd _ => (0xFF, 0x91)
  | .viaOtherirq _ _ _ => (0xFF, 0x92)
  | .gcrEnc4 _ _ _ _ => (0xFF, 0xC0)
  | .gcrDec5 _ => (0xFF, 0xC1)
  | .gcrEncsec _ _ _ _ _ => (0xFF, 0xC2)
  | .gcrDechdr _ => (0xFF, 0xC3)
  | .gcrDecdata _ => (0xFF, 0xC4)
  | .dskBuild _ => (0xFF, 0xC5)
  | .dskOffset _ _ _ => (0xFF, 0xC6)
  | .mechRegen _ => (0xFF, 0xC7)
  | .mechStep _ _ => (0xFF, 0xC8)
  | .busNotify _ _ _ => (0xFF, 0xC9)
  | .irqUpdate _ => (0xFF, 0xCA)

/-- The encoded tag matches the row of the table. -/
def TableTag.Statement (i : Instr) : Prop := (encode i).tag &&& (tableRow i).1 = (tableRow i).2

theorem TableTag.viabRdPb (d : Nat) : TableTag.Statement (.viabRdPb d) := by
  show (0x00 : Byte) &&& 0xFF = 0x00; decide

theorem TableTag.viabRdPa (d : Nat) : TableTag.Statement (.viabRdPa d) := by
  show (0x01 : Byte) &&& 0xFF = 0x01; decide

theorem TableTag.viabWrPb (d : Nat) (v : Byte) : TableTag.Statement (.viabWrPb d v) := by
  show (0x08 : Byte) &&& 0xFF = 0x08; decide

theorem TableTag.viabWrPa (d : Nat) (v : Byte) : TableTag.Statement (.viabWrPa d v) := by
  show (0x09 : Byte) &&& 0xFF = 0x09; decide

theorem TableTag.viadRdPb (d : Nat) : TableTag.Statement (.viadRdPb d) := by
  show (0x10 : Byte) &&& 0xFF = 0x10; decide

theorem TableTag.viadRdPa (d : Nat) : TableTag.Statement (.viadRdPa d) := by
  show (0x11 : Byte) &&& 0xFF = 0x11; decide

theorem TableTag.viadWrPb (d : Nat) (v : Byte) : TableTag.Statement (.viadWrPb d v) := by
  show (0x18 : Byte) &&& 0xFF = 0x18; decide

theorem TableTag.viadWrPa (d : Nat) (v : Byte) : TableTag.Statement (.viadWrPa d v) := by
  show (0x19 : Byte) &&& 0xFF = 0x19; decide

theorem TableTag.viaRdDdrb (d : Nat) (c : ViaId) : TableTag.Statement (.viaRdDdrb d c) := by
  show (0x02 ||| viaBits c : Byte) &&& 0xEF = 0x02
  cases c <;> decide

theorem TableTag.viaRdDdra (d : Nat) (c : ViaId) : TableTag.Statement (.viaRdDdra d c) := by
  show (0x03 ||| viaBits c : Byte) &&& 0xEF = 0x03
  cases c <;> decide

theorem TableTag.viaWrDdrb (d : Nat) (c : ViaId) (v : Byte) :
    TableTag.Statement (.viaWrDdrb d c v) := by
  show (0x0A ||| viaBits c : Byte) &&& 0xEF = 0x0A
  cases c <;> decide

theorem TableTag.viaWrDdra (d : Nat) (c : ViaId) (v : Byte) :
    TableTag.Statement (.viaWrDdra d c v) := by
  show (0x0B ||| viaBits c : Byte) &&& 0xEF = 0x0B
  cases c <;> decide

theorem TableTag.viaRdCt (d : Nat) (c : ViaId) (k : Fin 4) :
    TableTag.Statement (.viaRdCt d c k) := by
  show (0x04 ||| viaBits c ||| ctBits k : Byte) &&& 0xEC = 0x04
  cases c <;> (revert k; decide)

theorem TableTag.viaWrCt (d : Nat) (c : ViaId) (k : Fin 4) (v : Byte) :
    TableTag.Statement (.viaWrCt d c k v) := by
  show (0x0C ||| viaBits c ||| ctBits k : Byte) &&& 0xEC = 0x0C
  cases c <;> (revert k; decide)

theorem TableTag.tpiRdPa (d : Nat) : TableTag.Statement (.tpiRdPa d) := by
  show (0x20 : Byte) &&& 0xFF = 0x20; decide

theorem TableTag.tpiRdPb (d : Nat) : TableTag.Statement (.tpiRdPb d) := by
  show (0x21 : Byte) &&& 0xFF = 0x21; decide

theorem TableTag.tpiRdPc (d : Nat) : TableTag.Statement (.tpiRdPc d) := by
  show (0x22 : Byte) &&& 0xFF = 0x22; decide

theorem TableTag.tpiRdDdra (d : Nat) : TableTag.Statement (.tpiRdDdra d) := by
  show (0x23 : Byte) &&& 0xFF = 0x23; decide

theorem TableTag.tpiRdDdrb (d : Nat) : TableTag.Statement (.tpiRdDdrb d) := by
  show (0x24 : Byte) &&& 0xFF = 0x24; decide

theorem TableTag.tpiRdDdrc (d : Nat) : TableTag.Statement (.tpiRdDdrc d) := by
  show (0x25 : Byte) &&& 0xFF = 0x25; decide

theorem TableTag.tpiRdCr (d : Nat) : TableTag.Statement (.tpiRdCr d) := by
  show (0x26 : Byte) &&& 0xFF = 0x26; decide

theorem TableTag.tpiRdAir (d : Nat) : TableTag.Statement (.tpiRdAir d) := by
  show (0x27 : Byte) &&& 0xFF = 0x27; decide

theorem TableTag.tpiWrPa (d : Nat) (v : Byte) : TableTag.Statement (.tpiWrPa d v) := by
  show (0x28 : Byte) &&& 0xFF = 0x28; decide

theorem TableTag.tpiWrPb (d : Nat) (v : Byte) : TableTag.Statement (.tpiWrPb d v) := by
  show (0x29 : Byte) &&& 0xFF = 0x29; decide

theorem TableTag.tpiWrPc (d : Nat) (v : Byte) : TableTag.Statement (.tpiWrPc d v) := by
  show (0x2A : Byte) &&& 0xFF = 0x2A; decide

theorem TableTag.tpiWrDdra (d : Nat) (v : Byte) : TableTag.Statement (.tpiWrDdra d v) := by
  show (0x2B : Byte) &&& 0xFF = 0x2B; decide

theorem TableTag.tpiWrDdrb (d : Nat) (v : Byte) : TableTag.Statement (.tpiWrDdrb d v) := by
  show (0x2C : Byte) &&& 0xFF = 0x2C; decide

theorem TableTag.tpiWrDdrc (d : Nat) (v : Byte) : TableTag.Statement (.tpiWrDdrc d v) := by
  show (0x2D : Byte) &&& 0xFF = 0x2D; decide

theorem TableTag.tpiWrCr (d : Nat) (v : Byte) : TableTag.Statement (.tpiWrCr d v) := by
  show (0x2E : Byte) &&& 0xFF = 0x2E; decide

theorem TableTag.tpiWrAir (d : Nat) (v : Byte) : TableTag.Statement (.tpiWrAir d v) := by
  show (0x2F : Byte) &&& 0xFF = 0x2F; decide

theorem TableTag.sysReset : TableTag.Statement (.sysReset) := by
  show (0x80 : Byte) &&& 0xFF = 0x80; decide

theorem TableTag.sysPwron (d : Nat) : TableTag.Statement (.sysPwron d) := by
  show (0x81 : Byte) &&& 0xFF = 0x81; decide

theorem TableTag.sysPwroff (d : Nat) : TableTag.Statement (.sysPwroff d) := by
  show (0x82 : Byte) &&& 0xFF = 0x82; decide

theorem TableTag.sysMount (d : Nat) (format : Format) (bytes : List Host.Cell) (len : Nat) (wp : Bool) :
    TableTag.Statement (.sysMount d format bytes len wp) := by
  show (0x83 : Byte) &&& 0xFF = 0x83; decide

theorem TableTag.sysUnmount (d : Nat) : TableTag.Statement (.sysUnmount d) := by
  show (0x84 : Byte) &&& 0xFF = 0x84; decide

theorem TableTag.mechTick (d : Nat) : TableTag.Statement (.mechTick d) := by
  show (0x85 : Byte) &&& 0xFF = 0x85; decide

theorem TableTag.mechCtrl (d : Nat) (c : Byte) : TableTag.Statement (.mechCtrl d c) := by
  show (0x86 : Byte) &&& 0xFF = 0x86; decide

theorem TableTag.irqRetry : TableTag.Statement (.irqRetry) := by
  show (0x87 : Byte) &&& 0xFF = 0x87; decide

theorem TableTag.busSet (p : Nat) (l : Line) (v : Bool) : TableTag.Statement (.busSet p l v) := by
  show (0x88 : Byte) &&& 0xFF = 0x88; decide

theorem TableTag.busGet (l : Line) : TableTag.Statement (.busGet l) := by
  show (0x89 : Byte) &&& 0xFF = 0x89; decide

theorem TableTag.parEnable (v : Bool) : TableTag.Statement (.parEnable v) := by
  show (0x8A : Byte) &&& 0xFF = 0x8A; decide

theorem TableTag.parWrdata (v : Byte) : TableTag.Statement (.parWrdata v) := by
  show (0x8B : Byte) &&& 0xFF = 0x8B; decide

theorem TableTag.parRddata : TableTag.Statement (.parRddata) := by
  show (0x8C : Byte) &&& 0xFF = 0x8C; decide

theorem TableTag.parWrack (v : Bool) : TableTag.Statement (.parWrack v) := by
  show (0x8D : Byte) &&& 0xFF = 0x8D; decide

theorem TableTag.parRdack : TableTag.Statement (.parRdack) := by
  show (0x8E : Byte) &&& 0xFF = 0x8E; decide

theorem TableTag.tpiIrqin (d : Nat) (n : Fin 5) (level : Bool) :
    TableTag.Statement (.tpiIrqin d n level) := by
  show (0x8F : Byte) &&& 0xFF = 0x8F; decide

theorem TableTag.tpiHostwr (d : Nat) (v : Bool) : TableTag.Statement (.tpiHostwr d v) := by
  show (0x90 : Byte) &&& 0xFF = 0x90; decide

theorem TableTag.tpiHostrd (d : Nat) : TableTag.Statement (.tpiHostrd d) := by
  show (0x91 : Byte) &&& 0xFF = 0x91; decide

theorem TableTag.viaOtherirq (d : Nat) (c : ViaId) (level : Bool) :
    TableTag.Statement (.viaOtherirq d c level) := by
  show (0x92 : Byte) &&& 0xFF = 0x92; decide

theorem TableTag.gcrEnc4 (a : Byte) (b : Byte) (c : Byte) (e : Byte) :
    TableTag.Statement (.gcrEnc4 a b c e) := by
  show (0xC0 : Byte) &&& 0xFF = 0xC0; decide

theorem TableTag.gcrDec5 (group : List Byte) : TableTag.Statement (.gcrDec5 group) := by
  show (0xC1 : Byte) &&& 0xFF = 0xC1; decide

theorem TableTag.gcrEncsec (track : Byte) (sector : Byte) (id1 : Byte) (id2 : Byte) (data : List Byte) :
    TableTag.Statement (.gcrEncsec track sector id1 id2 data) := by
  show (0xC2 : Byte) &&& 0xFF = 0xC2; decide

theorem TableTag.gcrDechdr (group : List Byte) : TableTag.Statement (.gcrDechdr group) := by
  show (0xC3 : Byte) &&& 0xFF = 0xC3; decide

theorem TableTag.gcrDecdata (groups : List Byte) : TableTag.Statement (.gcrDecdata groups) := by
  show (0xC4 : Byte) &&& 0xFF = 0xC4; decide

theorem TableTag.dskBuild (format : Format) : TableTag.Statement (.dskBuild format) := by
  show (0xC5 : Byte) &&& 0xFF = 0xC5; decide

theorem TableTag.dskOffset (table : List Nat) (track : Nat) (sector : Nat) :
    TableTag.Statement (.dskOffset table track sector) := by
  show (0xC6 : Byte) &&& 0xFF = 0xC6; decide

theorem TableTag.mechRegen (d : Nat) : TableTag.Statement (.mechRegen d) := by
  show (0xC7 : Byte) &&& 0xFF = 0xC7; decide

theorem TableTag.mechStep (d : Nat) (new : Bits2) : TableTag.Statement (.mechStep d new) := by
  show (0xC8 : Byte) &&& 0xFF = 0xC8; decide

theorem TableTag.busNotify (q : Nat) (l : Line) (v : Bool) :
    TableTag.Statement (.busNotify q l v) := by
  show (0xC9 : Byte) &&& 0xFF = 0xC9; decide

theorem TableTag.irqUpdate (d : Nat) : TableTag.Statement (.irqUpdate d) := by
  show (0xCA : Byte) &&& 0xFF = 0xCA; decide

end Sys2Proof.Laws
end

