-- ==== Sys2Proof/Laws/Window.lean ====
section
/-! SUPPORT. Where the registers of a VIA-style chip stand in its window (R61, R62). -/

set_option Elab.async false

namespace Sys2Proof

/-- R62: the offset counts modulo 8. -/
theorem viaRegAt_mod (o : ViaOffsets) (off : Nat) : viaRegAt o (off % 8) = viaRegAt o off := by
  have : Fin.ofNat 8 (off % 8) = Fin.ofNat 8 off := by ext; simp
  simp only [viaRegAt, this]

/-- R61: the spec's table, the VIA half. -/
theorem viaRegAt_default : (List.range 8).map (viaRegAt defaultViaOffsets) =
    [.pb, .pa, .ddrb, .ddra, .ct 0, .ct 1, .ct 2, .ct 3] := by decide

/-- R61: four well-formed offsets hold the four named registers. -/
theorem viaRegAt_named {o : ViaOffsets} (h : o.wf = true) :
    viaRegAt o o.pb = .pb ∧ viaRegAt o o.pa = .pa ∧ viaRegAt o o.ddrb = .ddrb ∧
      viaRegAt o o.ddra = .ddra := by
  have h' : [o.pb, o.pa, o.ddrb, o.ddra].Nodup := by simpa [ViaOffsets.wf] using h
  simp only [List.nodup_cons, List.mem_cons, List.not_mem_nil, or_false, not_or] at h'
  have e : ∀ n : Fin 8, Fin.ofNat 8 n.val = n := fun n => by ext; simp
  simp only [viaRegAt, e]
  grind

/-- In a filtered list a kept element stands behind the kept ones before it. -/
theorem idxOf_filter {α : Type} [DecidableEq α] {p : α → Bool} {n : α} {l₁ : List α} (l₂ : List α)
    (h : n ∉ l₁) (hp : p n = true) :
    ((l₁ ++ n :: l₂).filter p).idxOf n = (l₁.filter p).length := by
  have h' : n ∉ l₁.filter p := fun hm => h (List.mem_of_mem_filter hm)
  rw [List.filter_append, List.filter_cons_of_pos hp, List.idxOf_append_of_notMem h',
    List.idxOf_cons_self, Nat.add_zero]

/-- Entry 21: an offset's place among the offsets that are left is how many of them lie below it. -/
theorem rest_idxOf (o : ViaOffsets) (n : Fin 8) (hn : o.named n = false) :
    o.rest.idxOf n = ((List.range n).filter fun m => !o.named (Fin.ofNat 8 m)).length := by
  have split : ([0, 1, 2, 3, 4, 5, 6, 7] : List (Fin 8)) =
      (List.range n).map (Fin.ofNat 8) ++ n :: [0, 1, 2, 3, 4, 5, 6, 7].drop (n + 1) := by
    clear hn; revert n; decide
  have fresh : n ∉ (List.range n).map (Fin.ofNat 8) := by clear hn split; revert n; decide
  rw [ViaOffsets.rest, split, idxOf_filter _ fresh (by simp [hn]), List.filter_map, List.length_map]
  rfl

/-- Entry 21: an offset that names no register holds the control/timer register whose number is how
many such offsets lie below it. -/
theorem viaRegAt_ct (o : ViaOffsets) (k : Fin 4) (n : Fin 8) (hn : o.named n = false)
    (hk : ((List.range n).filter fun m => !o.named (Fin.ofNat 8 m)).length = k) :
    viaRegAt o n = .ct k := by
  have e : Fin.ofNat 8 n.val = n := by ext; simp
  have hk' : Fin.ofNat 4 k.val = k := by ext; simp
  obtain ⟨h1, h2, h3, h4⟩ : n ≠ o.pb ∧ n ≠ o.pa ∧ n ≠ o.ddrb ∧ n ≠ o.ddra := by
    simpa [ViaOffsets.named] using hn
  simp only [viaRegAt, e, h1, h2, h3, h4, if_false, rest_idxOf o n hn, hk, hk']

end Sys2Proof
end

