-- ==== Sys2Proof/Tests/Slice0.lean ====
section
/-! SUPPORT. Tests: ill-formed terms are refused, written-out tags decode, one step of each
operation against the vectors of `spec/95_test_vectors.md` (or of the rule named), and for every
statement with hypotheses a state that meets them. -/

namespace Sys2Proof.Tests

open Sys2Proof Sys2Proof.Machine

-- One theorem after another: compiling them side by side takes a thread, and its stack, for each.
set_option Elab.async false

/-! ### Well-formedness: an ill-formed term for each check -/

/-- R6: drive numbers are 0 and 1. -/
theorem test_wf_drive :
    Instr.wf (.mechTick 1) = true ∧ Instr.wf (.mechTick 2) = false ∧
    Instr.wf (.viabRdPb 2) = false ∧ Instr.wf (.tpiWrAir 2 0) = false ∧
    Instr.wf (.sysMount 2 .d64 [] 0 false) = false ∧ Instr.wf (.irqUpdate 2) = false := by decide

/-- R160: participants are 0 to 2. -/
theorem test_wf_participant :
    Instr.wf (.busSet 2 .atn true) = true ∧ Instr.wf (.busSet 3 .atn true) = false ∧
    Instr.wf (.busNotify 3 .data false) = false := by decide

/-- R93: operand lengths of the codec's functions. -/
theorem test_wf_lengths :
    Instr.wf (.gcrDec5 [1, 2, 3, 4]) = false ∧
    Instr.wf (.gcrEncsec 1 0 0 0 (List.replicate 255 0)) = false ∧
    Instr.wf (.gcrDechdr (List.replicate 9 0)) = false ∧
    Instr.wf (.gcrDecdata (List.replicate 326 0)) = false := by decide +kernel

/-- R104, R142: a format without tracks, or with a track without sectors. -/
theorem test_wf_format :
    FormatInfo.wf ⟨[], 0⟩ = false ∧ FormatInfo.wf ⟨[⟨0, 21⟩], 0⟩ = false ∧
    FormatInfo.wf ⟨[⟨17, 21⟩, ⟨7, 0⟩], 0⟩ = false := by decide

/-- R96, R101, R104, R6: parameters that are refused, one for each condition. -/
theorem test_wf_params :
    let P := defaultParams
    let none : FormatInfo := ⟨[], 0⟩
    P.wf = true ∧
    Params.wf { P with gcrTable := P.gcrTable.take 15 } = false ∧
    Params.wf { P with gcrTable := 0x0B :: P.gcrTable.drop 1 } = false ∧
    Params.wf { P with gapGroup := [0, 0, 0, 0] } = false ∧
    Params.wf { P with gapGroup := [0, 0, 0xFF, 0, 0] } = false ∧
    Params.wf { P with formats := { P.formats with d64 := none } } = false ∧
    Params.wf { P with formats := { P.formats with d64x40 := none } } = false ∧
    Params.wf { P with formats := { P.formats with d71 := none } } = false ∧
    Params.wf { P with formats := { P.formats with d81 := none } } = false ∧
    Params.wf { P with formats := { P.formats with d80 := none } } = false ∧
    Params.wf { P with formats := { P.formats with d82 := none } } = false ∧
    Params.wf { P with irqRetryPeriod := some 0 } = false ∧
    Params.wf { P with irqRetryPeriod := some 500 } = true ∧
    Params.wf { P with viaOffsets := ⟨0, 1, 2, 1⟩ } = false ∧
    Params.wf { P with viaOffsets := ⟨1, 0, 3, 2⟩ } = true ∧
    Params.wf { P with noimgMaxTrack := 0 } = false := by decide +kernel

/-- R61, R6: port A before port B, the direction registers last; the control/timer registers fill
the offsets between (entry 21), and the offset counts modulo 8 (R62). -/
theorem test_window_other_offsets :
    let o : ViaOffsets := ⟨1, 0, 7, 6⟩
    (List.range 9).map (regRead o 0 .viad) = [.viadRdPa 0, .viadRdPb 0, .viaRdCt 0 .viad 0,
      .viaRdCt 0 .viad 1, .viaRdCt 0 .viad 2, .viaRdCt 0 .viad 3, .viaRdDdra 0 .viad,
      .viaRdDdrb 0 .viad, .viadRdPa 0] ∧
    regWrite o 1 .viab 15 0x0A = .viaWrDdrb 1 .viab 0x0A := by decide +kernel

/-- R41: in `1001_0000` the field `CA` is `01` and the field `CB` is `10`. -/
theorem test_cr_fields :
    let t := { TpiChip.afterReset with cr := 0b10010000 }
    crCa defaultParams t = 0b01 ∧ crCb defaultParams t = 0b10 := by decide

/-! ### Decoding: the tag of every row, written out from R91, R92, R93 -/

/-- What a request decodes to. -/
def decoded (r : Request) : Option Instr :=
  match decode r with
  | .ok i => some i
  | .error _ => none

/-- R91, `cc = 00` and `01`, ports A and B. -/
theorem test_decode_via_ports :
    decoded { tag := 0b00000000, drive := 1 } = some (.viabRdPb 1) ∧
    decoded { tag := 0b00000001 } = some (.viabRdPa 0) ∧
    decoded { tag := 0b00001000, byte := 0x0A } = some (.viabWrPb 0 0x0A) ∧
    decoded { tag := 0b00001001, byte := 0x5A } = some (.viabWrPa 0 0x5A) ∧
    decoded { tag := 0b00010000 } = some (.viadRdPb 0) ∧
    decoded { tag := 0b00010001, drive := 1 } = some (.viadRdPa 1) ∧
    decoded { tag := 0b00011000, byte := 0x64 } = some (.viadWrPb 0 0x64) ∧
    decoded { tag := 0b00011001, byte := 0x01 } = some (.viadWrPa 0 0x01) := by decide +kernel

/-- R91, the direction and control/timer registers of both chips. -/
theorem test_decode_via_registers :
    decoded { tag := 0b00000010 } = some (.viaRdDdrb 0 .viab) ∧
    decoded { tag := 0b00010010 } = some (.viaRdDdrb 0 .viad) ∧
    decoded { tag := 0b00000011 } = some (.viaRdDdra 0 .viab) ∧
    decoded { tag := 0b00010011 } = some (.viaRdDdra 0 .viad) ∧
    decoded { tag := 0b00001010, byte := 0x1A } = some (.viaWrDdrb 0 .viab 0x1A) ∧
    decoded { tag := 0b00011010, byte := 0x6F } = some (.viaWrDdrb 0 .viad 0x6F) ∧
    decoded { tag := 0b00001011, byte := 0x11 } = some (.viaWrDdra 0 .viab 0x11) ∧
    decoded { tag := 0b00011011, byte := 0x12 } = some (.viaWrDdra 0 .viad 0x12) ∧
    decoded { tag := 0b00000100 } = some (.viaRdCt 0 .viab 0) ∧
    decoded { tag := 0b00010111 } = some (.viaRdCt 0 .viad 3) ∧
    decoded { tag := 0b00001101, byte := 0x80 } = some (.viaWrCt 0 .viab 1 0x80) ∧
    decoded { tag := 0b00011110, byte := 0x77 } = some (.viaWrCt 0 .viad 2 0x77) := by decide +kernel

/-- R91, `cc = 10`. -/
theorem test_decode_tpi :
    decoded { tag := 0b00100000 } = some (.tpiRdPa 0) ∧
    decoded { tag := 0b00100001 } = some (.tpiRdPb 0) ∧
    decoded { tag := 0b00100010 } = some (.tpiRdPc 0) ∧
    decoded { tag := 0b00100011 } = some (.tpiRdDdra 0) ∧
    decoded { tag := 0b00100100 } = some (.tpiRdDdrb 0) ∧
    decoded { tag := 0b00100101 } = some (.tpiRdDdrc 0) ∧
    decoded { tag := 0b00100110 } = some (.tpiRdCr 0) ∧
    decoded { tag := 0b00100111, drive := 1 } = some (.tpiRdAir 1) ∧
    decoded { tag := 0b00101000, byte := 0x01 } = some (.tpiWrPa 0 0x01) ∧
    decoded { tag := 0b00101001, byte := 0x02 } = some (.tpiWrPb 0 0x02) ∧
    decoded { tag := 0b00101010, byte := 0x03 } = some (.tpiWrPc 0 0x03) ∧
    decoded { tag := 0b00101011, byte := 0x04 } = some (.tpiWrDdra 0 0x04) ∧
    decoded { tag := 0b00101100, byte := 0x05 } = some (.tpiWrDdrb 0 0x05) ∧
    decoded { tag := 0b00101101, byte := 0x06 } = some (.tpiWrDdrc 0 0x06) ∧
    decoded { tag := 0b00101110, byte := 0x07 } = some (.tpiWrCr 0 0x07) ∧
    decoded { tag := 0b00101111, byte := 0x08 } = some (.tpiWrAir 0 0x08) := by decide +kernel

/-- R92, `SYS.*`, `MECH.*`, `IRQ.RETRY`. -/
theorem test_decode_evt_system :
    decoded { tag := 0b10000000 } = some .sysReset ∧
    decoded { tag := 0b10000001, drive := 1 } = some (.sysPwron 1) ∧
    decoded { tag := 0b10000010 } = some (.sysPwroff 0) ∧
    decoded { tag := 0b10000011, format := .d81, cells := [(3, 4)], len := 9, level := true } =
      some (.sysMount 0 .d81 [(3, 4)] 9 true) ∧
    decoded { tag := 0b10000100 } = some (.sysUnmount 0) ∧
    decoded { tag := 0b10000101 } = some (.mechTick 0) ∧
    decoded { tag := 0b10000110, byte := 0x64 } = some (.mechCtrl 0 0x64) ∧
    decoded { tag := 0b10000111 } = some .irqRetry := by decide +kernel

/-- R92, `BUS.*`, `PAR.*` and the free inputs. -/
theorem test_decode_evt_lines :
    decoded { tag := 0b10001000, participant := 2, line := 1, level := true } =
      some (.busSet 2 .clock true) ∧
    decoded { tag := 0b10001001, line := 2 } = some (.busGet .data) ∧
    decoded { tag := 0b10001010, level := true } = some (.parEnable true) ∧
    decoded { tag := 0b10001011, byte := 0xA5 } = some (.parWrdata 0xA5) ∧
    decoded { tag := 0b10001100 } = some .parRddata ∧
    decoded { tag := 0b10001101, level := true } = some (.parWrack true) ∧
    decoded { tag := 0b10001110 } = some .parRdack ∧
    decoded { tag := 0b10001111, input := 4, level := true } = some (.tpiIrqin 0 4 true) ∧
    decoded { tag := 0b10010000, drive := 1, level := true } = some (.tpiHostwr 1 true) ∧
    decoded { tag := 0b10010001 } = some (.tpiHostrd 0) ∧
    decoded { tag := 0b10010010, chip := .viad, level := true } = some (.viaOtherirq 0 .viad true) := by
  decide +kernel

/-- R93. -/
theorem test_decode_fun :
    decoded { tag := 0b11000000, data := [1, 2, 3, 4] } = some (.gcrEnc4 1 2 3 4) ∧
    decoded { tag := 0b11000001, data := [5, 6, 7, 8, 9] } = some (.gcrDec5 [5, 6, 7, 8, 9]) ∧
    decoded { tag := 0b11000010, data := [18, 1, 0x41, 0x42] ++ List.replicate 256 7 } =
      some (.gcrEncsec 18 1 0x41 0x42 (List.replicate 256 7)) ∧
    decoded { tag := 0b11000011, data := List.replicate 10 7 } = some (.gcrDechdr (List.replicate 10 7)) ∧
    decoded { tag := 0b11000100, data := List.replicate 325 7 } =
      some (.gcrDecdata (List.replicate 325 7)) ∧
    decoded { tag := 0b11000101, format := .d80 } = some (.dskBuild .d80) ∧
    decoded { tag := 0b11000110, table := [0, 512], track := 1, sector := 1 } =
      some (.dskOffset [0, 512] 1 1) ∧
    decoded { tag := 0b11000111 } = some (.mechRegen 0) ∧
    decoded { tag := 0b11001000, byte := 3 } = some (.mechStep 0 3) ∧
    decoded { tag := 0b11001001, participant := 1, line := 0 } = some (.busNotify 1 .atn false) ∧
    decoded { tag := 0b11001010, drive := 1 } = some (.irqUpdate 1) := by decide +kernel

/-- R94: the reserved tags at the ends of their ranges, and their neighbours; R107, R256: a line or
an input that does not exist. -/
theorem test_decode_refusals :
    [0x30, 0x3F, 0x40, 0x7F, 0x93, 0xBF, 0xCB, 0xFF].map (decodeTableWord 8) = List.replicate 8 none ∧
    ([0x2F, 0x80, 0x92, 0xC0, 0xCA].map fun w => (decodeTableWord 8 w).isSome) = List.replicate 5 true ∧
    decoded { tag := 0x88, line := 3 } = none ∧ decoded { tag := 0x8F, input := 5 } = none ∧
    decoded { tag := 0x85, drive := 2 } = none := by decide +kernel


/-! ### Small states, and what is looked at after one operation -/

/-- The test value `TESTDEC` of `VIA_CTRL_DECODE` (`spec/95_test_vectors.md`), where it is used. -/
def testDec : List (ViaCt × ViaCtrl) :=
  [(⟨0, 0, 0, 0⟩, ⟨false, false⟩), (⟨1, 0, 0, 0⟩, ⟨false, true⟩), (⟨0, 0, 0, 2⟩, ⟨true, false⟩),
   (⟨1, 0, 0, 2⟩, ⟨true, true⟩)]

def testParams : Params := { defaultParams with viaCtrl := testDec }

/-- Two VIA drives, drive 0 with the given chips. -/
def viaState (b dd : ViaChip) : State :=
  { State.reset with
    params := testParams
    drives := [{ Drive.afterReset 0 with ctl := .via b dd }, Drive.afterReset 1] }

/-- One TPI drive with the given chip. -/
def tpiState (c : TpiChip) : State :=
  { State.reset with
    bus := ⟨List.replicate 2 Lines.released, Lines.released⟩
    drives := [{ Drive.afterReset 0 with ctl := .tpi c }] }

def chip0 : ViaChip := ViaChip.afterReset

def tpi0 : TpiChip := TpiChip.afterReset

/-- The state after a completed operation. -/
def stateOf : Out → Option State
  | .next s => some s
  | .fault _ => none
  | .refused _ => none

/-- What a completed operation returned. -/
def resultOf (o : Out) : Option Result := (stateOf o).map fun s => s.result

/-- Why an operation had no step. -/
def refusalOf : Out → Option Refusal
  | .next _ => none
  | .fault _ => none
  | .refused r => some r

/-- Drive `d` after a completed operation. -/
def driveOf (d : Nat) (o : Out) : Option Drive := (stateOf o).bind fun s => s.drives[d]?

def mechOf (o : Out) : Option Mech := (driveOf 0 o).map fun dr => dr.mech

def ctlOf (o : Out) : Option Controller := (driveOf 0 o).map fun dr => dr.ctl

/-- The level `cpu_irq` of drive 0. -/
def irqOf (o : Out) : Option Bool := (driveOf 0 o).map fun dr => dr.cpuIrq

def linesOf (o : Out) : Option Lines := (stateOf o).map fun s => s.bus.line

def eventsOf (o : Out) : Option (List Event) := (stateOf o).map fun s => s.events

/-- The TPI of drive 0. -/
def tpiOf (o : Out) : Option TpiChip :=
  (ctlOf o).bind fun c =>
    match c with
    | .tpi t => some t
    | .via _ _ => none

/-- One chip of drive 0. -/
def viaOf (c : ViaId) (o : Out) : Option ViaChip :=
  (ctlOf o).bind fun k =>
    match k with
    | .via b dd => some (viaChip b dd c)
    | .tpi _ => none

/-! ### The VIA pair: one step of each operation (§2.4, §2.3, P1, P2, P5) -/

/-- §2.4, `VIAB.RD.PB`: row `1A`, `02`, lines `0 1 0`. -/
theorem test_viabRdPb :
    resultOf (exec (.viabRdPb 0) { viaState { chip0 with ddrb := 0x1A, orb := 0x02 } chip0 with
      bus := ⟨[⟨false, true, true⟩, ⟨true, true, false⟩, Lines.released], ⟨false, true, false⟩⟩ }) =
      some (.byte 0x83) := by decide +kernel

/-- §2.7: after reset `VIAB.RD.PB d` gives `$1A | (dev_sel << 5)`. -/
theorem test_viabRdPb_reset :
    resultOf (exec (.viabRdPb 0) State.reset) = some (.byte 0x1A) ∧
    resultOf (exec (.viabRdPb 1) State.reset) = some (.byte 0x3A) := by decide +kernel

/-- P2: the port A read gives `$FF` and withdraws the request. -/
theorem test_viabRdPa :
    let o := exec (.viabRdPa 0) (viaState { chip0 with ct := ⟨1, 0, 0, 2⟩, ca1Flag := true, chipIrq := true } chip0)
    resultOf o = some (.byte 0xFF) ∧ (viaOf .viab o).map (fun c => (c.ca1Flag, c.chipIrq)) =
      some (false, false) := by decide +kernel

/-- §2.4, `VIAB.WR.PB`, `ddrb = 1A`: `$0A` pulls both lines. -/
theorem test_viabWrPb :
    linesOf (exec (.viabWrPb 0 0x0A) (viaState { chip0 with ddrb := 0x1A } chip0)) =
      some ⟨true, false, false⟩ ∧
    linesOf (exec (.viabWrPb 0 0x10) (viaState { chip0 with ddrb := 0x1A } chip0)) =
      some Lines.released := by decide +kernel

/-- §2.4: with `ddrb = 00` no value pulls anything. -/
theorem test_viabWrPb_undriven :
    linesOf (exec (.viabWrPb 0 0xFF) (viaState chip0 chip0)) = some Lines.released := by
  decide +kernel

/-- R217. -/
theorem test_viabWrPa :
    (viaOf .viab (exec (.viabWrPa 0 0x33) (viaState { chip0 with ca1Flag := true } chip0))).map
      (fun c => (c.ora, c.ca1Flag)) = some (0x33, false) := by decide +kernel

/-- §2.4, `VIAD.RD.PB`: rows `46`, sync, and `64`, protected. -/
theorem test_viadRdPb :
    let rd := fun (orb : Byte) (sync wp : Bool) =>
      resultOf (exec (.viadRdPb 0) { State.reset with
        drives := [{ Drive.afterReset 0 with
          ctl := .via chip0 { chip0 with ddrb := 0x6F, orb := orb }, wp := wp
          mech := { Mech.afterReset with sync := sync } }] })
    rd 0x46 true false = some (.byte 0x56) ∧ rd 0x64 false true = some (.byte 0xE4) := by
  decide +kernel

/-- §2.4: `VIAD.RD.PA` gives the byte under the head and clears the flag and the request. -/
theorem test_viadRdPa :
    let o := exec (.viadRdPa 0) { viaState chip0 chip0 with
      drives := [{ Drive.afterReset 0 with
        buf := [0xFF, 0x52, 0x56], mech := { Mech.afterReset with pos := 1 }, cpuIrq := true
        ctl := .via chip0 { chip0 with ct := ⟨0, 0, 0, 2⟩, ca1Flag := true, chipIrq := true } }] }
    resultOf o = some (.byte 0x52) ∧ irqOf o = some false ∧ eventsOf o = some [.cpuIrq 0 false] := by
  decide +kernel

/-- §2.4, `VIAD.WR.PB`: `$65` from reset: motor, zone 3, a forward step. -/
theorem test_viadWrPb :
    (mechOf (exec (.viadWrPb 0 0x65) (viaState chip0 { chip0 with ddrb := 0x6F }))).map
      (fun m => (m.motor, m.zone, m.phase, m.ht, m.timerArmed, m.timerPeriod)) =
      some (true, 3, 1, 3, true, 26) := by decide +kernel

/-- §2.4: with `ddrb = 00` every write is seen as `$00`. -/
theorem test_viadWrPb_undriven :
    mechOf (exec (.viadWrPb 0 0x65) (viaState chip0 chip0)) = some Mech.afterReset := by decide +kernel

/-- §2.4: `VIAD.WR.PA $00` clears flag and request too. -/
theorem test_viadWrPa :
    irqOf (exec (.viadWrPa 0 0x00) { viaState chip0 chip0 with
      drives := [{ Drive.afterReset 0 with
        cpuIrq := true
        ctl := .via chip0 { chip0 with ct := ⟨0, 0, 0, 2⟩, ca1Flag := true, chipIrq := true } }] }) =
      some false := by decide +kernel

/-- R226, R227: each chip reads its own direction register. -/
theorem test_viaRdDdr :
    let s := viaState { chip0 with ddra := 1, ddrb := 2 } { chip0 with ddra := 3, ddrb := 4 }
    resultOf (exec (.viaRdDdra 0 .viab) s) = some (.byte 1) ∧
    resultOf (exec (.viaRdDdrb 0 .viab) s) = some (.byte 2) ∧
    resultOf (exec (.viaRdDdra 0 .viad) s) = some (.byte 3) ∧
    resultOf (exec (.viaRdDdrb 0 .viad) s) = some (.byte 4) := by decide +kernel

/-- §2.4, R228: a later `VIA.WR.DDRB` applies the stored `orb` at once, at either chip. -/
theorem test_viaWrDdrb :
    linesOf (exec (.viaWrDdrb 0 .viab 0x1A) (viaState { chip0 with orb := 0x02 } chip0)) =
      some ⟨true, true, false⟩ ∧
    (mechOf (exec (.viaWrDdrb 0 .viad 0x6F) (viaState chip0 { chip0 with orb := 0x04 }))).map
      (fun m => m.motor) = some true := by decide +kernel

/-- R229. -/
theorem test_viaWrDdra :
    (viaOf .viad (exec (.viaWrDdra 0 .viad 0xF0) (viaState chip0 chip0))).map (fun c => c.ddra) =
      some 0xF0 := by decide +kernel

/-- R224: a read of a control/timer register takes one free value and changes no register. -/
theorem test_viaRdCt :
    let o := exec (.viaRdCt 0 .viab 2) (viaState { chip0 with ct := ⟨1, 0, 7, 2⟩ } chip0)
    (stateOf o).map (fun s => s.draws) = some 1 ∧
    viaOf .viab o = some { chip0 with ct := ⟨1, 0, 7, 2⟩ } := by decide +kernel

/-- §2.4, R230: with the flag set, writing `ct[3] = $02` raises `cpu_irq` at once. -/
theorem test_viaWrCt :
    let o := exec (.viaWrCt 0 .viad 3 0x02) (viaState chip0 { chip0 with ca1Flag := true })
    (viaOf .viad o).map (fun c => c.ct) = some ⟨0, 0, 0, 2⟩ ∧ irqOf o = some true := by
  decide +kernel

/-- P5: the other source of the bus chip while the disk chip requests: a collision. -/
theorem test_viaOtherirq :
    let o := exec (.viaOtherirq 0 .viab true) { viaState chip0 chip0 with
      drives := [{ Drive.afterReset 0 with
        cpuIrq := true
        ctl := .via chip0 { chip0 with ct := ⟨0, 0, 0, 2⟩, ca1Flag := true, chipIrq := true } }] }
    (viaOf .viab o).map (fun c => (c.chipIrq, c.irqRetry)) = some (true, true) ∧
    (stateOf o).map (fun s => s.retryArmed) = some true ∧ eventsOf o = some [] := by decide +kernel

/-! ### The TPI: one step of each operation (§2.5, P3) -/

/-- §2.5, R245: `ddra = F0`, `pra = 00` over a byte `FF` reads `0F`. -/
theorem test_tpiRdPa :
    resultOf (exec (.tpiRdPa 0) { tpiState tpi0 with
      drives := [{ Drive.afterReset 0 with buf := [0xFF], ctl := .tpi { tpi0 with ddra := 0xF0 } }] }) =
      some (.byte 0x0F) := by decide +kernel

/-- §2.5, R246. -/
theorem test_tpiRdPb :
    resultOf (exec (.tpiRdPb 0) (tpiState { tpi0 with ddrb := 0x0F, prb := 0x05 })) =
      some (.byte 0xF5) := by decide +kernel

/-- P3: `TPI.RD.PC` in ordinary mode. -/
theorem test_tpiRdPc :
    resultOf (exec (.tpiRdPc 0) (tpiState
      { tpi0 with cr := 0x08, ddrc := 0x0F, prc := 0x08, hsDav := false })) = some (.byte 0x58) := by
  decide +kernel

/-- R248: in interrupt mode bits 5:0 take a free value. -/
theorem test_tpiRdPc_interrupt_mode :
    (stateOf (exec (.tpiRdPc 0) (tpiState { tpi0 with cr := 0x01 }))).map (fun s => s.draws) =
      some 1 := by decide +kernel

/-- R249 to R252. -/
theorem test_tpiRd_registers :
    let s := tpiState { tpi0 with ddra := 1, ddrb := 2, ddrc := 3, cr := 0x0B }
    resultOf (exec (.tpiRdDdra 0) s) = some (.byte 1) ∧ resultOf (exec (.tpiRdDdrb 0) s) = some (.byte 2) ∧
    resultOf (exec (.tpiRdDdrc 0) s) = some (.byte 3) ∧
    resultOf (exec (.tpiRdCr 0) s) = some (.byte 0x0B) := by decide +kernel

/-- P3: priorized, `air = 14` reads `10` and leaves `04`. -/
theorem test_tpiRdAir_priorized :
    let o := exec (.tpiRdAir 0) (tpiState { tpi0 with cr := 0x03, air := 0x14, chipIrq := true })
    resultOf o = some (.byte 0x10) ∧ (tpiOf o).map (fun t => (t.air, t.chipIrq)) = some (0x04, true) := by
  decide +kernel

/-- P3: non-priorized, `air = 03` reads `03` and clears all. -/
theorem test_tpiRdAir_all :
    let o := exec (.tpiRdAir 0) (tpiState { tpi0 with cr := 0x01, air := 0x03, chipIrq := true })
    resultOf o = some (.byte 0x03) ∧ (tpiOf o).map (fun t => (t.air, t.chipIrq)) = some (0, false) := by
  decide +kernel

/-- R253, R254, R261, R262. -/
theorem test_tpiWr_registers :
    (tpiOf (exec (.tpiWrPa 0 0x11) (tpiState tpi0))) = some { tpi0 with pra := 0x11 } ∧
    (tpiOf (exec (.tpiWrPb 0 0x12) (tpiState tpi0))) = some { tpi0 with prb := 0x12 } ∧
    (tpiOf (exec (.tpiWrDdra 0 0x13) (tpiState tpi0))) = some { tpi0 with ddra := 0x13 } ∧
    (tpiOf (exec (.tpiWrDdrb 0 0x14) (tpiState tpi0))) = some { tpi0 with ddrb := 0x14 } := by
  decide +kernel

/-- P3: `TPI.WR.PC $08` with the ACK pin driven raises `hs_ack`. -/
theorem test_tpiWrPc :
    (tpiOf (exec (.tpiWrPc 0 0x08) (tpiState { tpi0 with cr := 0x08, ddrc := 0x0F, hsAck := false }))).map
      (fun t => t.hsAck) = some true := by decide +kernel

/-- R255, R260: driving a low ACK pin in ordinary mode lowers `hs_ack`; masking a pending source
leaves it pending (P3). -/
theorem test_tpiWrDdrc :
    (tpiOf (exec (.tpiWrDdrc 0 0x08) (tpiState tpi0))).map (fun t => t.hsAck) = some false ∧
    (tpiOf (exec (.tpiWrDdrc 0 0x0F) (tpiState { tpi0 with cr := 0x09, air := 0x10 }))).map
      (fun t => (t.air, t.hsAck)) = some (0x10, true) := by decide +kernel

/-- P3: leaving interrupt mode drops `cpu_irq`, keeps `air`, and applies the ACK pin. -/
theorem test_tpiWrCr :
    let o := exec (.tpiWrCr 0 0x08) { tpiState tpi0 with
      drives := [{ Drive.afterReset 0 with
        cpuIrq := true, ctl := .tpi { tpi0 with cr := 0x09, ddrc := 0x0F, air := 0x18, chipIrq := true } }] }
    (tpiOf o).map (fun t => (t.air, t.hsAck)) = some (0x18, false) ∧ irqOf o = some false := by
  decide +kernel

/-- P3: a write of `air` has no effect. -/
theorem test_tpiWrAir :
    tpiOf (exec (.tpiWrAir 0 0x00) (tpiState { tpi0 with air := 0x18 })) = some { tpi0 with air := 0x18 } := by
  decide +kernel

/-- P3: a falling edge on input 2 becomes pending; a rising edge of input 4 only with `IE4`. -/
theorem test_tpiIrqin :
    let air := fun (cr : Byte) (n : Fin 5) (level : Bool) =>
      (tpiOf (exec (.tpiIrqin 0 n level) (tpiState
        { tpi0 with cr := cr, ddrc := 0x1F, irqLevel := Vector.replicate 5 (!level) }))).map fun t => t.air
    air 0x03 2 false = some 0x04 ∧ air 0x03 4 true = some 0x00 ∧ air 0x09 4 true = some 0x10 := by
  decide +kernel

/-- §2.5: with `MC = 0` an input change only records the level; so does a masked source (P3). -/
theorem test_tpiIrqin_ignored :
    (tpiOf (exec (.tpiIrqin 0 2 false) (tpiState { tpi0 with ddrc := 0x1F }))).map
      (fun t => (t.air, t.irqLevel[2])) = some (0x00, false) ∧
    (tpiOf (exec (.tpiIrqin 0 4 false) (tpiState { tpi0 with cr := 1, ddrc := 0x0F }))).map
      (fun t => t.air) = some 0x00 := by decide +kernel

/-- P3, R263, R264. -/
theorem test_tpiHost :
    (tpiOf (exec (.tpiHostwr 0 false) (tpiState tpi0))).map (fun t => t.hsDav) = some false ∧
    resultOf (exec (.tpiHostrd 0) (tpiState { tpi0 with hsAck := false })) = some (.bit false) := by
  decide +kernel

/-- U15: the host's write, a step, a regeneration and an interrupt update addressed to a drive that
is off. -/
theorem test_off_ignores :
    let s : State := { State.reset with drives := [{ Drive.afterReset 0 with powered := false },
      { Drive.afterReset 1 with powered := false, ctl := .tpi tpi0 }] }
    refusalOf (exec (.tpiHostwr 1 false) s) = some (.drivePoweredOff 1) ∧
    refusalOf (exec (.mechStep 0 1) s) = some (.drivePoweredOff 0) ∧
    refusalOf (exec (.mechRegen 0) s) = some (.drivePoweredOff 0) ∧
    refusalOf (exec (.irqUpdate 0) s) = some (.drivePoweredOff 0) ∧
    resultOf (exec (.tpiHostrd 1) s) = some (.bit true) := by decide +kernel

/-- R286, R92: whose moves some operations are, with drive 0 a VIA and drive 1 a TPI drive. -/
theorem test_performs :
    let s : State := { State.reset with drives := [Drive.afterReset 0,
      { Drive.afterReset 1 with ctl := .tpi tpi0 }] }
    s.performs (.driveCpu 0) (.viabWrPb 0 0) = true ∧ s.performs (.driveCpu 1) (.viabWrPb 0 0) = false ∧
    s.performs (.driveCpu 1) (.tpiRdAir 1) = true ∧ s.performs (.driveCpu 0) (.tpiRdAir 0) = false ∧
    s.performs (.driveCpu 1) (.mechCtrl 1 0) = true ∧ s.performs (.driveCpu 0) (.mechCtrl 0 0) = false ∧
    s.performs .host (.busSet 0 .atn false) = true ∧ s.performs .host (.busSet 1 .atn false) = false ∧
    s.performs (.driveCpu 0) (.busSet 1 .atn false) = false ∧
    s.performs (.driveCpu 1) (.busGet .atn) = true ∧ s.performs (.driveCpu 1) (.parEnable true) = false ∧
    s.performs .host (.mechStep 0 1) = false ∧ s.performs .frontend .sysReset = true := by
  decide +kernel

/-! ### The bus and the pair (§2.2) -/

/-- §2.2, first row: three notifications, participant 0 first (newest event first). -/
theorem test_busSet :
    let o := exec (.busSet 1 .data false) State.reset
    linesOf o = some ⟨true, true, false⟩ ∧
    eventsOf o = some [.busEdge 2 .data false, .busEdge 1 .data false, .busEdge 0 .data false] := by
  decide +kernel

/-- §2.2, second row: the line is held low already; nobody is notified. -/
theorem test_busSet_held :
    let o := exec (.busSet 2 .data false) { State.reset with
      bus := ⟨[Lines.released, ⟨true, true, false⟩, Lines.released], ⟨true, true, false⟩⟩ }
    linesOf o = some ⟨true, true, false⟩ ∧ eventsOf o = some [] := by decide +kernel

/-- R164. -/
theorem test_busGet :
    resultOf (exec (.busGet .clock) { State.reset with
      bus := ⟨[Lines.released, ⟨true, false, true⟩, Lines.released], ⟨true, false, true⟩⟩ }) =
      some (.bit false) := by decide +kernel

/-- P2: an asserted ATN is active at drive 0 (`ct[0] = 1`), and enabled there. -/
theorem test_busNotify :
    let o := exec (.busNotify 1 .atn false) (viaState { chip0 with ct := ⟨1, 0, 0, 2⟩ } chip0)
    irqOf o = some true ∧ eventsOf o = some [.cpuIrq 0 true, .busEdge 1 .atn false] := by decide +kernel

/-- §2.2, the pair from reset. -/
theorem test_par_disabled :
    resultOf (exec .parRddata State.reset) = some (.byte 0xFF) ∧
    resultOf (exec .parRdack State.reset) = some (.bit true) ∧
    (stateOf (exec (.parWrdata 0x12) State.reset)).map (fun s => s.par.data) = some 0xFF ∧
    (stateOf (exec (.parEnable true) State.reset)).map (fun s => s.par) = some ⟨true, true, 0xFF⟩ := by
  decide +kernel

/-- §2.2, the pair enabled. -/
theorem test_par_enabled :
    let s : State := { State.reset with par := ⟨true, true, 0xA5⟩ }
    resultOf (exec .parRddata s) = some (.byte 0xA5) ∧
    (stateOf (exec (.parWrack false) s)).map (fun s => s.par) = some ⟨true, false, 0xA5⟩ ∧
    (stateOf (exec (.parWrdata 0x12) s)).map (fun s => s.par) = some ⟨true, true, 0x12⟩ ∧
    resultOf (exec .parRdack { s with par := ⟨true, false, 0⟩ }) = some (.bit false) := by
  decide +kernel

/-! ### The mechanism (§2.3) -/

/-- A powered VIA drive 0 with the given mechanism and no image. -/
def mechState (m : Mech) : State :=
  { viaState chip0 chip0 with drives := [{ Drive.afterReset 0 with mech := m }] }

/-- §2.3, `MECH.STEP` from `ht = 10`, `phase = 0`: forward, backward, illegal. -/
theorem test_mechStep :
    let at10 := fun new => (mechOf (exec (.mechStep 0 new) (mechState
      { Mech.afterReset with ht := 10 }))).map fun m => (m.ht, m.phase)
    at10 1 = some (11, 1) ∧ at10 3 = some (9, 3) ∧ at10 2 = some (10, 2) := by decide +kernel

/-- §2.3: clamped low and high; the phase is stored. -/
theorem test_mechStep_clamped :
    let step := fun ht new => (mechOf (exec (.mechStep 0 new) (mechState
      { Mech.afterReset with ht := ht }))).map fun m => (m.ht, m.phase)
    step 2 3 = some (2, 3) ∧ step 70 1 = some (70, 1) := by decide +kernel

/-- §2.3, `set_motor_zone`: `$04` arms with `ZONE_PERIOD[0]`; `$60` disarms and keeps the zone. -/
theorem test_mechCtrl :
    (mechOf (exec (.mechCtrl 0 0x04) (mechState Mech.afterReset))).map
      (fun m => (m.motor, m.timerArmed, m.timerPeriod)) = some (true, true, 32) ∧
    (mechOf (exec (.mechCtrl 0 0x60) (mechState
      { Mech.afterReset with motor := true, zone := 3, timerArmed := true }))).map
      (fun m => (m.motor, m.timerArmed, m.zone)) = some (false, false, 3) := by decide +kernel

/-- R184: the fifth `0xFF` in a row asserts sync; R195: one pulse; R222: the flag. -/
theorem test_mechTick :
    let o := exec (.mechTick 0) { viaState chip0 chip0 with
      drives := [{ Drive.afterReset 0 with
        buf := List.replicate 365 0xFF
        mech := { Mech.afterReset with pos := 28, ffcount := 4, motor := true, timerArmed := true } }] }
    (mechOf o).map (fun m => (m.pos, m.ffcount, m.sync)) = some (29, 5, true) ∧
    (viaOf .viad o).map (fun c => c.ca1Flag) = some true ∧ eventsOf o = some [.readyPulse 0] := by
  decide +kernel

/-- §2.3: with no image the cursor wraps and the sector stays; disarmed there is no tick. -/
theorem test_mechTick_wrap :
    (mechOf (exec (.mechTick 0) (mechState
      { Mech.afterReset with pos := 364, sector := 7, timerArmed := true }))).map
      (fun m => (m.pos, m.sector)) = some (0, 7) ∧
    refusalOf (exec (.mechTick 0) State.reset) = some (.timerDisarmed 0) := by decide +kernel

/-- A `d64` image that is zero but for the disk ID (P4, `IMG0`). -/
def img0 : Image := mountImage defaultParams .d64 [(91554, 0x41), (91555, 0x42)] 174848

/-- Vector V6: sector (18,0) of that image, the header and the group that holds `00 00 00 41`. -/
theorem test_mechRegen :
    let o := exec (.mechRegen 0) { viaState chip0 chip0 with
      drives := [{ Drive.afterReset 0 with img := some img0, mech := { Mech.afterReset with ht := 36 } }] }
    (driveOf 0 o).map (fun dr => (slice dr.buf 5 10, slice dr.buf 230 5, slice dr.buf 350 5)) =
      some ([0x52, 0x56, 0xB5, 0x29, 0x72, 0x72, 0xDD, 0x25, 0x55, 0x55],
        [0x52, 0x94, 0xA5, 0x29, 0xCB], [0x52, 0x95, 0x35, 0x29, 0x4A]) := by decide +kernel

/-- §2.6, R276: two waiting sources, one level. -/
theorem test_irqUpdate :
    let o := exec (.irqUpdate 0) (viaState { chip0 with otherIrq := true } { chip0 with otherIrq := true })
    irqOf o = some true ∧ (viaOf .viad o).map (fun c => c.irqRetry) = some true ∧
    eventsOf o = some [.cpuIrq 0 true] := by decide +kernel

/-- P5: the retry timer delivers when the other chip is silent, and disarms. -/
theorem test_irqRetry :
    let s := { viaState { chip0 with chipIrq := true, irqRetry := true } chip0 with retryArmed := true }
    let o := exec .irqRetry s
    eventsOf o = some [.irqDelivered 0 .viab] ∧ (stateOf o).map (fun s => s.retryArmed) = some false := by
  decide +kernel

/-- P5: while the other chip requests nothing changes. -/
theorem test_irqRetry_blocked :
    let s := { viaState { chip0 with chipIrq := true, irqRetry := true } { chip0 with chipIrq := true } with
      retryArmed := true }
    eventsOf (exec .irqRetry s) = some [] ∧
    (stateOf (exec .irqRetry s)).map (fun s => s.retryArmed) = some true := by decide +kernel

/-! ### Reset, power, mount (§2.3, §2.7, P1, P4) -/

/-- R300: chips and mechanism cleared, the pair idle, no line notification. -/
theorem test_sysReset :
    let o := exec .sysReset { viaState { chip0 with orb := 2, ddrb := 2 } chip0 with
      bus := ⟨[Lines.released, ⟨true, true, false⟩, Lines.released], ⟨true, true, false⟩⟩
      par := ⟨true, false, 1⟩ }
    linesOf o = some Lines.released ∧ viaOf .viab o = some chip0 ∧ eventsOf o = some [] := by
  decide +kernel

/-- R302. -/
theorem test_sysPwron :
    (driveOf 0 (exec (.sysPwron 0) { State.reset with
      drives := [{ Drive.afterReset 0 with powered := false }] })).map (fun dr => dr.powered) = some true ∧
    refusalOf (exec (.sysPwron 0) State.reset) = some (.drivePoweredOn 0) := by decide +kernel

/-- P4: the DATA line goes back, participants 0 and 2 hear it, the drive itself does not. -/
theorem test_sysPwroff :
    let o := exec (.sysPwroff 0) { viaState { chip0 with orb := 2, ddrb := 0x1A } chip0 with
      bus := ⟨[Lines.released, ⟨true, true, false⟩, Lines.released], ⟨true, true, false⟩⟩ }
    eventsOf o = some [.busEdge 2 .data true, .busEdge 0 .data true] ∧
    linesOf o = some Lines.released ∧ viaOf .viab o = some chip0 := by decide +kernel

/-- P1: the first bytes of the buffer after a mount at track 1; a second mount has no step. -/
theorem test_sysMount :
    let o := exec (.sysMount 0 .d64 [(91555, 0x42), (91554, 0x41)] 174848 false) State.reset
    (driveOf 0 o).map (fun dr => dr.buf.take 15) =
      some [0xFF, 0xFF, 0xFF, 0xFF, 0xFF, 0x52, 0x55, 0x25, 0x29, 0x4B, 0x72, 0xDD, 0x25, 0x55, 0x55] ∧
    refusalOf (exec (.sysMount 0 .d81 [] 0 true) { State.reset with
      drives := [{ Drive.afterReset 0 with img := some img0 }] }) = some (.imageMounted 0) := by
  decide +kernel

/-- Vector V7, R64: the ID lies past the end of a short image, and reads zero. -/
theorem test_sysMount_short :
    ((driveOf 0 (exec (.sysMount 0 .d64 [(91554, 0x41)] 91492 false) State.reset)).bind
      fun dr => dr.img).map (fun im => (im.id1, im.id2)) = some (0, 0) := by decide +kernel

/-- §2.3: a `d82` at `ht = 200` unmounted gives `ht = 70`; motor and timer stop. -/
theorem test_sysUnmount :
    (mechOf (exec (.sysUnmount 0) (mechState
      { Mech.afterReset with ht := 200, motor := true, timerArmed := true }))).map
      (fun m => (m.ht, m.motor, m.timerArmed)) = some (70, false, false) := by decide +kernel

/-! ### The codec and disk addressing (§2.1) -/

/-- §2.1, rows `01 23 45 67` and `89 AB CD EF`. -/
theorem test_gcrEnc4 :
    resultOf (exec (.gcrEnc4 0x01 0x23 0x45 0x67) State.reset) =
      some (.bytes [0x52, 0xE5, 0x37, 0x3E, 0xD7]) ∧
    resultOf (exec (.gcrEnc4 0x89 0xAB 0xCD 0xEF) State.reset) =
      some (.bytes [0x4E, 0x75, 0xB6, 0xF7, 0xD5]) := by decide +kernel

/-- §2.1, decoder corner cases. -/
theorem test_gcrDec5 :
    resultOf (exec (.gcrDec5 [0x52, 0x94, 0xA5, 0x29, 0x4B]) State.reset) = some (.bytes [0, 0, 0, 1]) ∧
    resultOf (exec (.gcrDec5 [0x52, 0x94, 0xA5, 0x29, 0x40]) State.reset) = some .invalid ∧
    resultOf (exec (.gcrDec5 [0x12, 0x94, 0xA5, 0x29, 0x4A]) State.reset) = some .invalid := by
  decide +kernel

/-- Vector V3: the first and the last group of the data block. -/
theorem test_gcrEncsec :
    (match resultOf (exec (.gcrEncsec 1 0 0 0 (0x80 :: 0x01 :: List.replicate 254 0)) State.reset) with
      | some (.bytes l) => some (l.length, slice l 30 5, slice l 350 5)
      | _ => none) =
      some (365, [0x55, 0xD2, 0xA5, 0x2D, 0x4A], [0x52, 0x92, 0xB5, 0x29, 0x4A]) := by decide +kernel

/-- §2.1, the header of (35,16); R137: a wrong mark is decoded and not `header_ok`. -/
theorem test_gcrDechdr :
    resultOf (exec (.gcrDechdr [0x52, 0x66, 0xA5, 0xAA, 0x53, 0x72, 0xDD, 0x25, 0x55, 0x55]) State.reset) =
      some (.header ⟨0x08, 0x30, 16, 35, 0x41, 0x42, 0x0F, 0x0F⟩ true) ∧
    resultOf (exec (.gcrDechdr [0x55, 0xD4, 0xA5, 0x29, 0x4A, 0x72, 0xDD, 0x25, 0x55, 0x55]) State.reset) =
      some (.header ⟨0x07, 0, 0, 0, 0x41, 0x42, 0x0F, 0x0F⟩ false) := by decide +kernel

/-- Vector V1's data block, decoded. -/
theorem test_gcrDecdata :
    resultOf (exec (.gcrDecdata ([0x55, 0xD4, 0xA5, 0x29, 0x4A] ++
      (List.replicate 64 [0x52, 0x94, 0xA5, 0x29, 0x4A]).flatten)) State.reset) =
      some (.data (List.replicate 256 0) 0 true) := by decide +kernel

/-- §2.1, the `d64` table. -/
theorem test_dskBuild :
    (match resultOf (exec (.dskBuild .d64) State.reset) with
      | some (.table t) => some (t.length, t.getD 17 0, t.getD 24 0, t.getD 30 0, t.getD 35 0)
      | _ => none) = some (36, 91392, 125440, 153088, 174848) := by decide +kernel

/-- §2.1: `offset(18,1)` of a `d64`, and a track past the table. -/
theorem test_dskOffset :
    resultOf (exec (.dskOffset (buildTable defaultParams .d64) 18 1) State.reset) =
      some (.address 91648) ∧
    refusalOf (exec (.dskOffset (buildTable defaultParams .d64) 36 0) State.reset) =
      some (.trackOutOfRange 36) := by decide +kernel

/-- R8: a step takes the presented operation; the words of the opcode table run from reset. -/
theorem test_step :
    resultOf (step (State.reset.withFetchWord 8 0x89)) = some (.bit true) ∧
    resultOf (step (State.reset.withFetchWord 8 0x26)) = some (.byte 0) ∧
    refusalOf (step State.reset) = some .noOperation := by decide +kernel

/-! ### Two sound states

`demoOn`: a spinning VIA drive at the end of its buffer with a mounted image, its bus chip listening
for ATN and both chips requesting (the disk chip's request waits), and a spinning TPI drive with two
sources pending; the host holds CLOCK and drive 0 holds DATA. `demoOff`: the same machine with both
drives off. -/

def demoImage : Image := mountImage testParams .d64 [(91555, 0x42), (91554, 0x41), (0, 9)] 174848

def busChip : ViaChip :=
  { chip0 with ct := ⟨1, 0, 0, 2⟩, ddrb := 0x1A, orb := 0x02, otherIrq := true, chipIrq := true }

def diskChip : ViaChip :=
  { chip0 with ddrb := 0x6F, orb := 0x64, otherIrq := true, chipIrq := true, irqRetry := true }

def demoVia : Drive :=
  { Drive.afterReset 0 with
    img := some demoImage
    wp := true
    mech := { Mech.afterReset with
      ht := 36, sector := 5, pos := 364, motor := true, zone := 3, timerArmed := true, timerPeriod := 26 }
    ctl := .via busChip diskChip
    cpuIrq := true }

def demoChip : TpiChip := { tpi0 with cr := 0x03, ddrc := 0x1F, air := 0x12, hsDav := false, chipIrq := true }

def demoTpi : Drive :=
  { Drive.afterReset 1 with
    mech := { Mech.afterReset with motor := true, timerArmed := true }
    ctl := .tpi demoChip
    cpuIrq := true }

def demoOn : State :=
  { State.reset with
    params := testParams
    bus := ⟨[⟨true, false, true⟩, ⟨true, true, false⟩, Lines.released], ⟨true, false, false⟩⟩
    par := ⟨true, false, 0x12⟩
    drives := [demoVia, demoTpi]
    retryArmed := true
    requests := [{ tag := 0x87 }] }

def offVia : Drive :=
  { Drive.afterReset 0 with powered := false, img := some demoImage, mech := { Mech.afterReset with ht := 70 } }

def offTpi : Drive :=
  { Drive.afterReset 1 with powered := false, ctl := .tpi { tpi0 with hsDav := false } }

def demoOff : State := { State.reset with params := testParams, drives := [offVia, offTpi] }

theorem demoImage_sound : demoImage.Sound testParams := mountImage_sound _ _ _ _

theorem demoVia_sound : demoVia.Sound testParams where
  mech := {
    bufferLength := by decide +kernel
    cursor := by decide
    headLow := by decide
    headHigh := by decide +kernel
    sector := by
      intro im h
      obtain rfl : demoImage = im := Option.some.inj h
      decide +kernel
    ffcount := by decide
    sync := by decide }
  image := by
    intro im h
    obtain rfl : demoImage = im := Option.some.inj h
    exact demoImage_sound
  timer := ⟨by decide, ⟨3, by decide⟩, fun _ => by decide, fun h => by cases h⟩
  irqCurrent := ⟨by decide +kernel, by decide +kernel⟩
  cpuIrq := by decide
  off := fun h => by cases h
  retry := ⟨fun _ => rfl, fun _ => rfl⟩
  air := trivial
  ackOff := fun h => by cases h

theorem demoTpi_sound : demoTpi.Sound testParams where
  mech := {
    bufferLength := by decide +kernel
    cursor := by decide
    headLow := by decide
    headHigh := by decide +kernel
    sector := by intro im h; cases h
    ffcount := by decide
    sync := by decide }
  image := by intro im h; cases h
  timer := ⟨by decide, ⟨0, by decide⟩, fun _ => by decide, fun h => by cases h⟩
  irqCurrent := by show _ = _; decide +kernel
  cpuIrq := by decide
  off := fun h => by cases h
  retry := fun _ => rfl
  air := by show _ = _; decide
  ackOff := fun h => by cases h

theorem offVia_sound : offVia.Sound testParams where
  mech := {
    bufferLength := by decide +kernel
    cursor := by decide
    headLow := by decide
    headHigh := by decide +kernel
    sector := by
      intro im h
      obtain rfl : demoImage = im := Option.some.inj h
      decide +kernel
    ffcount := by decide
    sync := by decide }
  image := by
    intro im h
    obtain rfl : demoImage = im := Option.some.inj h
    exact demoImage_sound
  timer := ⟨by decide, ⟨0, by decide⟩, fun h => (by cases h), fun _ => by decide⟩
  irqCurrent := ⟨by decide +kernel, by decide +kernel⟩
  cpuIrq := by decide
  off := fun _ => by decide
  retry := ⟨fun h => (by cases h), fun h => by cases h⟩
  air := trivial
  ackOff := fun _ => trivial

theorem offTpi_sound : offTpi.Sound testParams where
  mech := {
    bufferLength := by decide +kernel
    cursor := by decide
    headLow := by decide
    headHigh := by decide +kernel
    sector := by intro im h; cases h
    ffcount := by decide
    sync := by decide }
  image := by intro im h; cases h
  timer := ⟨by decide, ⟨0, by decide⟩, fun h => (by cases h), fun _ => by decide⟩
  irqCurrent := by show _ = _; decide +kernel
  cpuIrq := by decide
  off := fun _ => by decide
  retry := fun h => by cases h
  air := by show _ = _; decide
  ackOff := fun _ => rfl

theorem demoOn_sound : demoOn.Sound where
  params := by decide +kernel
  shape := by unfold State.ShapeOk; decide
  bus := by intro l; cases l <;> decide
  drives := by
    intro dr h
    rcases List.mem_cons.1 h with rfl | h
    · exact demoVia_sound
    · obtain rfl := List.mem_singleton.1 h
      exact demoTpi_sound
  retry := by decide +kernel
  offReleases := by
    intro d dr h ho
    rcases d with _ | _ | d
    · cases h; cases ho
    · cases h; cases ho
    · cases h

theorem demoOff_sound : demoOff.Sound where
  params := by decide +kernel
  shape := by unfold State.ShapeOk; decide
  bus := by intro l; cases l <;> decide
  drives := by
    intro dr h
    rcases List.mem_cons.1 h with rfl | h
    · exact offVia_sound
    · obtain rfl := List.mem_singleton.1 h
      exact offTpi_sound
  retry := by decide +kernel
  offReleases := by
    intro d dr h ho
    rcases d with _ | _ | d
    · rfl
    · rfl
    · cases h

theorem demoVia_at : ViaAt demoOn 0 demoVia busChip diskChip := ⟨rfl, rfl, rfl⟩

theorem demoTpi_at : TpiAt demoOn 1 demoTpi demoChip := ⟨rfl, rfl, rfl⟩

/-! ### A witness for every statement with hypotheses -/

theorem witness_DecodeOfEncode :
    Instr.wf (.irqUpdate 1) = true ∧ Instr.wf (.busSet 2 .data true) = true ∧
    Instr.wf (.gcrDec5 (List.replicate 5 0)) = true ∧
    Instr.wf (.gcrEncsec 1 0 0 0 (List.replicate 256 0)) = true ∧
    Instr.wf (.gcrDechdr (List.replicate 10 0)) = true ∧
    Instr.wf (.gcrDecdata (List.replicate 325 0)) = true := by decide +kernel

theorem witness_ReservedAndForeignTagsRefused :
    ({ State.reset with requests := [{ tag := 0x30 }] } : State).requests = [{ tag := 0x30 }] ∧
    (match decode { tag := 0x30 } with
      | .error e => e = .reservedTag 0x30
      | .ok _ => False) ∧
    demoOn.drives[0]? = some demoVia ∧ demoVia.ctl = .via busChip diskChip ∧
    demoOn.drives[1]? = some demoTpi ∧ demoTpi.ctl = .tpi demoChip :=
  ⟨rfl, rfl, rfl, rfl, rfl, rfl⟩

/-- The offsets of the window, and a left over offset for the lowest and the highest `CT`. -/
theorem witness_RegisterWindowMap :
    let o := demoOn.params.viaOffsets
    o.wf = true ∧
    (o.named 4 = false ∧ ((List.range 4).filter fun m => !o.named (Fin.ofNat 8 m)).length = (0 : Fin 4)) ∧
    (o.named 7 = false ∧ ((List.range 7).filter fun m => !o.named (Fin.ofNat 8 m)).length = (3 : Fin 4)) := by
  decide +kernel

theorem witness_StepRunsDecodedOperation :
    (demoOn.requests = [{ tag := 0x87 }] ∧ decode { tag := 0x87 } = .ok .irqRetry) ∧
    (decoded { tag := 0x89, agent := .driveCpu 0 } = some (.busGet .atn) ∧
      demoOn.drives[0]? = some demoVia ∧ demoVia.powered = true ∧ demoOn.drives[2]? = none ∧
      demoOff.drives[0]? = some offVia ∧ offVia.powered = false) ∧
    State.reset.requests = [] := ⟨⟨rfl, rfl⟩, ⟨rfl, rfl, rfl, rfl, rfl, rfl⟩, rfl⟩

theorem witness_EveryStepKeepsSound : demoOn.Sound ∧ ∃ t, step demoOn = .next t :=
  ⟨demoOn_sound, _, rfl⟩

theorem witness_EveryOperationKeepsBusConsistent :
    BusConsistent demoOn.bus ∧ ∃ t, exec (.busSet 0 .atn false) demoOn = .next t :=
  ⟨demoOn_sound.bus, _, rfl⟩

/-- A tick at the end of the buffer, and an operation that none of the exceptions names. -/
theorem witness_WhatMovesTheHead :
    (∃ t dr', exec (.mechTick 0) demoOn = .next t ∧ demoOn.drives[0]? = some demoVia ∧
      t.drives[0]? = some dr') ∧
    (∃ t dr', exec (.viaOtherirq 0 .viab false) demoOn = .next t ∧ t.drives[0]? = some dr') ∧
    placesHead 0 (.viaOtherirq 0 .viab false) = false ∧
    writesStepper 0 (.viaOtherirq 0 .viab false) = false :=
  ⟨⟨_, _, rfl, rfl, rfl⟩, ⟨_, _, rfl, rfl⟩, rfl, rfl⟩

theorem witness_ImagesAreReadOnly :
    touchesImage (.mechTick 0) = false ∧ ∃ t, exec (.mechTick 0) demoOn = .next t := ⟨rfl, _, rfl⟩

theorem witness_WhatIsFixedForLife :
    ∃ t dr', exec (.mechTick 1) demoOn = .next t ∧ demoOn.drives[1]? = some demoTpi ∧
      t.drives[1]? = some dr' ∧ touchesImage (.mechTick 1) = false := ⟨_, _, rfl, rfl, rfl, rfl⟩

/-- For the third clause, a move of the host and one of a drive's CPU that change their latches; for
the last, a wired list. -/
theorem witness_DrivesAreIsolated_moves :
    (demoOn.performs .host (.busSet 0 .data false) = true ∧
      ∃ t, exec (.busSet 0 .data false) demoOn = .next t ∧ t.bus.latches[0]? ≠ demoOn.bus.latches[0]?) ∧
    (demoOn.performs (.driveCpu 0) (.viabWrPb 0 0x00) = true ∧
      ∃ t, exec (.viabWrPb 0 0x00) demoOn = .next t ∧ t.bus.latches[1]? ≠ demoOn.bus.latches[1]?) ∧
    let s : State := { demoOn with requests := [{ tag := 0x87, agent := .retryTimer }] }
    s.Wired ∧ ∃ t, step s = .next t := by
  refine ⟨⟨rfl, _, rfl, by decide +kernel⟩, ⟨rfl, _, rfl, by decide +kernel⟩, ?_, _, rfl⟩
  intro r hr i hi
  simp only [List.mem_singleton] at hr
  subst hr
  cases hi
  rfl

/-- The first clause: an operation that leaves ATN alone, and a power-off that lets it go. -/
theorem witness_DrivesAreIsolated :
    (demoOn.ShapeOk ∧ addressedDrive (.viabRdPa 0) = some 0 ∧ demoOn.drives[1]? = some demoTpi ∧
      ∃ t, exec (.viabRdPa 0) demoOn = .next t ∧ t.bus.line.atn = demoOn.bus.line.atn) ∧
    let s : State := { State.reset with
      params := testParams
      bus := ⟨[Lines.released, ⟨false, true, true⟩, Lines.released], ⟨false, true, true⟩⟩ }
    s.ShapeOk ∧ addressedDrive (.sysPwroff 0) = some 0 ∧ s.drives[1]? = some (Drive.afterReset 1) ∧
      ∃ t, exec (.sysPwroff 0) s = .next t ∧ t.bus.line.atn ≠ s.bus.line.atn := by
  refine ⟨⟨demoOn_sound.shape, rfl, rfl, _, rfl, by decide +kernel⟩, ?_⟩
  exact ⟨by unfold State.ShapeOk; decide, rfl, rfl, _, rfl, by decide +kernel⟩

theorem witness_OneReadyPulsePerTick : ∃ t, exec (.mechTick 1) demoOn = .next t := ⟨_, rfl⟩

theorem witness_NothingRunsWhileOff :
    demoOff.Sound ∧ demoOff.drives[0]? = some offVia ∧ offVia.powered = false ∧
    needsPower 0 (.mechTick 0) = true ∧ needsPower 0 (.viabRdPb 0) = true ∧
    needsPower 0 (.mechStep 0 1) = true ∧
    demoOff.drives[1]? = some offTpi ∧ offTpi.powered = false ∧
    needsPower 1 (.tpiIrqin 1 4 true) = true ∧ needsPower 1 (.tpiHostwr 1 true) = true :=
  ⟨demoOff_sound, rfl, rfl, rfl, rfl, rfl, rfl, rfl, rfl, rfl⟩

theorem witness_NoTickAfterPowerOff :
    Instr.sysPwron 0 ∉ [Instr.mechTick 1, .viabRdPb 0, .mechTick 1].erase (.viabRdPb 0) ∧
    ∃ t u, exec (.sysPwroff 0) demoOn = .next t ∧
      execAll ([Instr.mechTick 1, .viabRdPb 0, .mechTick 1].erase (.viabRdPb 0)) t = .next u :=
  ⟨by decide, _, _, rfl, rfl⟩

/-- The disk chip's request waits while the bus chip requests, and the retry timer fires. -/
theorem witness_WaitingRequestNeverDropped :
    ∃ t dr', exec .irqRetry demoOn = .next t ∧ demoOn.drives[0]? = some demoVia ∧
      t.drives[0]? = some dr' ∧ demoVia.ctl.waits .viad = true ∧ dr'.ctl.asks .viad = true ∧
      detaches 0 .irqRetry = false ∧ demoVia.ctl.otherAsks .viad = true :=
  ⟨_, _, rfl, rfl, rfl, rfl, rfl, rfl, rfl⟩

/-- A group with a code that is not in the table, and one without. -/
theorem witness_GroupDecoding :
    demoOn.params.wf = true ∧
    (let G : BitVec 40 := 0xFF#8 ++ 0xFF#8 ++ 0xFF#8 ++ 0xFF#8 ++ 0xFF#8;
      ∃ i : Fin 8, G.extractLsb' (35 - 5 * i.val) 5 ∉ demoOn.params.gcrTable) ∧
    let G : BitVec 40 := 0x52#8 ++ 0x94#8 ++ 0xA5#8 ++ 0x29#8 ++ 0x4B#8
    ¬ ∃ i : Fin 8, G.extractLsb' (35 - 5 * i.val) 5 ∉ demoOn.params.gcrTable :=
  ⟨by decide +kernel, by decide +kernel, by decide +kernel⟩

theorem witness_SectorBufferLayout :
    demoOn.params.wf = true ∧ (List.replicate 256 (0xA5 : Byte)).length = 256 ∧
    (1 ≤ 1 ∧ 1 ≤ 63) ∧ (1 ≤ 63 ∧ 63 ≤ 63) := by decide +kernel

theorem witness_SectorRoundTrip :
    demoOn.params.wf = true ∧ (List.replicate 256 (0xA5 : Byte)).length = 256 := by decide +kernel

/-- The first code of an encoded group is the code of the first nibble. -/
theorem first_code (tbl : List Code) (a b c e : Byte) :
    (groupBits tbl a b c e).extractLsb' 35 5 = codeOf tbl (hi4 a) := by
  unfold groupBits
  generalize codeOf tbl (hi4 a) = x0
  generalize codeOf tbl (lo4 a) = x1
  generalize codeOf tbl (hi4 b) = x2
  generalize codeOf tbl (lo4 b) = x3
  generalize codeOf tbl (hi4 c) = x4
  generalize codeOf tbl (lo4 c) = x5
  generalize codeOf tbl (hi4 e) = x6
  generalize codeOf tbl (lo4 e) = x7
  ext i hi
  simp only [BitVec.getElem_extractLsb', BitVec.getLsbD_append]
  rw [if_neg (by omega), if_neg (by omega), if_neg (by omega), if_neg (by omega), if_neg (by omega),
    if_neg (by omega), if_neg (by omega)]
  rw [show 35 + i - 5 - 5 - 5 - 5 - 5 - 5 - 5 = i by omega]
  exact BitVec.getLsbD_eq_getElem hi

/-- No four bytes encode to a group that starts with `0xFF` (R98). -/
theorem no_group_starts_FF (a b c e : Byte) (l : List Byte) :
    encode4to5 defaultGcrTable a b c e ≠ 0xFF :: l := by
  intro h
  have h1 := (List.cons.inj h).1
  have h2 : (groupBits defaultGcrTable a b c e).extractLsb' 35 5 = (0x1F : Code) := by
    have : (groupBits defaultGcrTable a b c e).extractLsb' 35 5 =
        ((groupBits defaultGcrTable a b c e).extractLsb' 32 8).extractLsb' 3 5 := by
      ext i hi
      simp [BitVec.getElem_extractLsb', ← Nat.add_assoc, show 3 + i < 8 by omega]
    rw [this, h1]; rfl
  rw [first_code] at h2
  exact absurd h2 ((by decide +kernel : ∀ n : Nibble, codeOf defaultGcrTable n ≠ 0x1F) _)

/-- Ten bytes that some fields encode to, and ten that none do. -/
theorem witness_HeaderDecoding :
    demoOn.params.wf = true ∧
    (let h : Header := ⟨0x08, 0x11, 0, 18, 0x41, 0x42, 0x0F, 0x0F⟩;
      (encode4to5 demoOn.params.gcrTable h.mark h.chk h.sector h.track ++
        encode4to5 demoOn.params.gcrTable h.id1 h.id2 h.pad1 h.pad2).length = 10) ∧
    (List.replicate 10 (0xFF : Byte)).length = 10 ∧
    ∀ h : Header, encode4to5 demoOn.params.gcrTable h.mark h.chk h.sector h.track ++
      encode4to5 demoOn.params.gcrTable h.id1 h.id2 h.pad1 h.pad2 ≠ List.replicate 10 0xFF := by
  refine ⟨by decide +kernel, by decide +kernel, rfl, fun h he => ?_⟩
  have := congrArg (List.take 5) he
  rw [List.take_left' (by rfl)] at this
  exact no_group_starts_FF _ _ _ _ _ this

/-- 325 bytes that 260 bytes encode to, and 325 that none do. -/
theorem witness_DataDecoding :
    demoOn.params.wf = true ∧
    (let g := (List.replicate 65 (encode4to5 demoOn.params.gcrTable 0 0 0 0)).flatten;
      g.length = 325 ∧ (List.replicate 260 (0 : Byte)).length = 260 ∧
      ∀ k : Fin 65, slice g (5 * k.val) 5 = encode4to5 demoOn.params.gcrTable 0 0 0 0) ∧
    (List.replicate 325 (0xFF : Byte)).length = 325 ∧
    ∀ blk : List Byte, ¬ (blk.length = 260 ∧ ∀ k, k < 65 → slice (List.replicate 325 0xFF) (5 * k) 5 =
      encode4to5 demoOn.params.gcrTable (blk.getD (4 * k) 0) (blk.getD (4 * k + 1) 0)
        (blk.getD (4 * k + 2) 0) (blk.getD (4 * k + 3) 0)) := by
  refine ⟨by decide +kernel, by decide +kernel, by decide +kernel, fun blk h => ?_⟩
  have h0 := h.2 0 (by omega)
  have hs : slice (List.replicate 325 (0xFF : Byte)) (5 * 0) 5 = 0xFF :: [0xFF, 0xFF, 0xFF, 0xFF] := by
    decide +kernel
  rw [hs] at h0
  exact no_group_starts_FF _ _ _ _ _ h0.symm

/-- The ends of both ranges: the header block at 5 and 10, the data block at 30 and 350. -/
theorem witness_NoSyncInsideBlocks :
    defaultParams.wf = true ∧ defaultParams.gcrTable = defaultGcrTable ∧
    (List.replicate 256 (0xFF : Byte)).length = 256 ∧
    (5 ≤ 5 ∧ 5 + 5 ≤ 15) ∧ (5 ≤ 10 ∧ 10 + 5 ≤ 15) ∧ (30 ≤ 30 ∧ 30 + 5 ≤ 355) ∧
    (30 ≤ 350 ∧ 350 + 5 ≤ 355) := by decide +kernel

/-- Drive 0 at the start of a freshly encoded sector, arrived at by a tick (`ff = 1`) or not. -/
def atSectorStart (ff : Nat) : Drive :=
  { demoVia with
    buf := encodeSector testParams 18 5 0x41 0x42 (List.replicate 256 0xFF)
    mech := { demoVia.mech with pos := 0, ffcount := ff } }

theorem witness_SyncAtBlockStarts :
    demoOn.params.wf = true ∧ demoOn.params.gcrTable = defaultGcrTable ∧
    (List.replicate 256 (0xFF : Byte)).length = 256 ∧
    ∀ ff : Fin 2,
      ({ demoOn with drives := [atSectorStart ff.val] } : State).drives[0]? = some (atSectorStart ff.val) ∧
      (atSectorStart ff.val).mech.timerArmed = true ∧
      (atSectorStart ff.val).buf =
        encodeSector demoOn.params 18 5 0x41 0x42 (List.replicate 256 0xFF) ∧
      (atSectorStart ff.val).mech.pos = 0 ∧ (atSectorStart ff.val).mech.ffcount ≤ 1 ∧
      (atSectorStart ff.val).mech.sync = false ∧ ((0 ≤ 364 ∧ 4 ≤ 364) ∧ (29 ≤ 364 ∧ 364 ≤ 364)) :=
  ⟨by decide +kernel, rfl, by decide +kernel,
    fun ff => ⟨rfl, rfl, rfl, rfl, (by have := ff.isLt; show ff.val ≤ 1; omega), rfl, by decide⟩⟩

theorem witness_OffsetTable :
    (1 ≤ 1 ∧ 1 ≤ maxTrackOf demoOn.params .d64) ∧ (1 ≤ 35 ∧ 35 ≤ maxTrackOf demoOn.params .d64) := by
  decide +kernel

/-- The ends of the domain, and the tracks just outside it. -/
theorem witness_OffsetOfCoordinate :
    let table := buildTable defaultParams .d64
    (1 ≤ 1 ∧ 1 < table.length) ∧ (1 ≤ 35 ∧ 35 < table.length) ∧ 0 < 1 ∧ table.length ≤ 36 := by
  decide +kernel

/-- The last sector of track 17 and the first of track 18, and two sectors of one track. -/
theorem witness_OffsetsIncrease :
    let P := defaultParams
    let valid := fun t s => 1 ≤ t ∧ t ≤ maxTrackOf P .d64 ∧ s < sptOf P .d64 t
    P.wf = true ∧ valid 17 20 ∧ valid 18 0 ∧ valid 35 15 ∧ valid 35 16 ∧
    20 + 1 = sptOf P .d64 17 ∧ 17 + 1 ≤ maxTrackOf P .d64 ∧ 15 + 1 < sptOf P .d64 35 ∧
    offset? (buildTable P .d64) 17 20 = some 91136 ∧ offset? (buildTable P .d64) 18 0 = some 91392 ∧
    offset? (buildTable P .d64) 35 15 = some 174336 ∧ offset? (buildTable P .d64) 35 16 = some 174592 := by
  decide +kernel

/-- Both drives of `demoOn`, with an image and without. -/
theorem witness_RegenerateResult :
    demoOn.Sound ∧ demoOn.drives[0]? = some demoVia ∧ demoVia.powered = true ∧
    demoOn.drives[1]? = some demoTpi ∧ demoTpi.powered = true ∧
    demoOff.Sound ∧ demoOff.drives[0]? = some offVia ∧ offVia.powered = false :=
  ⟨demoOn_sound, rfl, rfl, rfl, rfl, demoOff_sound, rfl, rfl⟩

/-- A step onto the next whole track, one inside it, and the illegal ones. -/
theorem witness_StepResult :
    demoOn.Sound ∧ demoOn.drives[0]? = some demoVia ∧
    headAfter (demoVia.maxTrack testParams) demoVia.mech.ht demoVia.mech.phase 3 / 2 ≠ demoVia.mech.ht / 2 ∧
    headAfter (demoVia.maxTrack testParams) demoVia.mech.ht demoVia.mech.phase 1 / 2 = demoVia.mech.ht / 2 ∧
    demoVia.powered = true ∧ demoOn.drives[1]? = some demoTpi ∧ demoTpi.powered = true ∧
    demoOff.Sound ∧ demoOff.drives[0]? = some offVia ∧ offVia.powered = false :=
  ⟨demoOn_sound, rfl, by decide +kernel, by decide +kernel, rfl, rfl, rfl, demoOff_sound, rfl, rfl⟩

theorem witness_StepperLaw :
    demoOn.Sound ∧ demoOn.drives[0]? = some demoVia ∧ demoVia.powered = true ∧
    (0 : Bits2) = demoVia.mech.phase ∧ (2 : Bits2) = demoVia.mech.phase + 2 :=
  ⟨demoOn_sound, rfl, rfl, rfl, rfl⟩

/-- Nothing to change (`$64`), and something (`$00`). -/
theorem witness_ControlByteResult :
    demoOn.drives[0]? = some demoVia ∧ demoVia.powered = true ∧
    demoOn.params.pinmapViad = defaultPinmapViad ∧
    ((0x64 : Byte).getLsbD 2 = demoVia.mech.motor ∧ (0x64 : Byte).extractLsb' 5 2 = demoVia.mech.zone) ∧
    (0x00 : Byte).getLsbD 2 ≠ demoVia.mech.motor := ⟨rfl, rfl, rfl, by decide, by decide⟩

/-- A VIA drive at the end of its buffer, a TPI drive, and a drive whose timer is disarmed. -/
theorem witness_TickResult :
    demoOn.Sound ∧ demoOn.drives[0]? = some demoVia ∧ demoVia.mech.timerArmed = true ∧
    demoVia.ctl = .via busChip diskChip ∧ demoOn.drives[1]? = some demoTpi ∧
    demoTpi.mech.timerArmed = true ∧ demoTpi.ctl = .tpi demoChip ∧
    demoOff.Sound ∧ demoOff.drives[0]? = some offVia ∧ offVia.mech.timerArmed = false :=
  ⟨demoOn_sound, rfl, rfl, rfl, rfl, rfl, rfl, demoOff_sound, rfl, rfl⟩

theorem witness_MountResult :
    demoOn.Sound ∧ demoOn.drives[1]? = some demoTpi ∧ demoTpi.img = none ∧
    demoOn.drives[0]? = some demoVia ∧ demoVia.img ≠ none :=
  ⟨demoOn_sound, rfl, rfl, rfl, fun h => by cases h⟩

theorem witness_UnmountResult : demoOn.drives[0]? = some demoVia := rfl

theorem witness_SysResetResult :
    demoOn.Sound ∧ demoOn.drives[0]? = some demoVia ∧ demoOn.drives[1]? = some demoTpi :=
  ⟨demoOn_sound, rfl, rfl⟩

theorem witness_PowerOnResult :
    demoOff.Sound ∧ demoOff.drives[1]? = some offTpi ∧ offTpi.powered = false ∧
    demoOn.Sound ∧ demoOn.drives[0]? = some demoVia ∧ demoVia.powered = true :=
  ⟨demoOff_sound, rfl, rfl, demoOn_sound, rfl, rfl⟩

theorem witness_PowerOffResult :
    demoOn.Sound ∧ demoOn.drives[0]? = some demoVia ∧ demoVia.powered = true ∧
    demoOn.drives[1]? = some demoTpi ∧ demoOff.Sound ∧ demoOff.drives[0]? = some offVia ∧
    offVia.powered = false := ⟨demoOn_sound, rfl, rfl, rfl, demoOff_sound, rfl, rfl⟩

/-- The host pulls ATN (the line changes), and drive 1 pulls CLOCK (it does not). -/
theorem witness_BusSetResult :
    demoOn.ShapeOk ∧ ((0 : Nat) = 0 ∧ ∃ t, exec (.busSet 0 .atn false) demoOn = .next t ∧
      t.bus.line.get .atn ≠ demoOn.bus.line.get .atn) ∧
    (∃ dr, demoOn.drives[2 - 1]? = some dr ∧ dr.powered = true) ∧
    ∃ t, exec (.busSet 2 .clock false) demoOn = .next t ∧
      t.bus.line.get .clock = demoOn.bus.line.get .clock :=
  ⟨demoOn_sound.shape, ⟨rfl, _, rfl, by decide +kernel⟩, ⟨demoTpi, rfl, rfl⟩, _, rfl, by decide +kernel⟩

theorem witness_BusGetResult : BusConsistent demoOn.bus := demoOn_sound.bus

/-- An active ATN edge, an edge that is not active, a TPI drive, and a drive that is off. -/
theorem witness_NotifyResult :
    demoOn.ShapeOk ∧ demoOn.drives[0]? = some demoVia ∧ ViaAt demoOn 0 demoVia busChip diskChip ∧
    activeAtn demoOn.params busChip false ∧ ¬ activeAtn demoOn.params busChip true ∧
    TpiAt demoOn 1 demoTpi demoChip ∧ demoOff.ShapeOk ∧ demoOff.drives[0]? = some offVia ∧
    offVia.powered = false := by
  refine ⟨demoOn_sound.shape, rfl, demoVia_at, ?_, ?_, demoTpi_at, demoOff_sound.shape, rfl, rfl⟩ <;>
    unfold activeAtn <;> decide +kernel

theorem witness_ParallelPairResult :
    demoOn.par.enable = true ∧ State.reset.par.enable = false := ⟨rfl, rfl⟩

theorem witness_BusStatusByte :
    ViaAt demoOn 0 demoVia busChip diskChip ∧ demoOn.params.pinmapViab = defaultPinmapViab :=
  ⟨demoVia_at, rfl⟩

theorem witness_MechanismStatusByte :
    ViaAt demoOn 0 demoVia busChip diskChip ∧ demoOn.params.pinmapViad = defaultPinmapViad :=
  ⟨demoVia_at, rfl⟩

theorem witness_PortAReads : ViaAt demoOn 0 demoVia busChip diskChip := demoVia_at

theorem witness_PortAWrites : ViaAt demoOn 0 demoVia busChip diskChip := demoVia_at

/-- Both operations the statement covers. -/
theorem witness_BusChipDrivesLines :
    ViaAt demoOn 0 demoVia busChip diskChip ∧ demoOn.params.pinmapViab = defaultPinmapViab ∧
    (Instr.viabWrPb 0 0x08 = .viabWrPb 0 0x08 ∧
      { busChip with orb := 0x08 } = ({ busChip with orb := 0x08 } : ViaChip)) ∧
    (Instr.viaWrDdrb 0 .viab 0x08 = .viaWrDdrb 0 .viab 0x08 ∧
      { busChip with ddrb := 0x08 } = ({ busChip with ddrb := 0x08 } : ViaChip)) :=
  ⟨demoVia_at, rfl, ⟨rfl, rfl⟩, rfl, rfl⟩

theorem witness_DiskChipCommandsMechanism : ViaAt demoOn 0 demoVia busChip diskChip := demoVia_at

theorem witness_ViaPlainRegisters : ViaAt demoOn 0 demoVia busChip diskChip := demoVia_at

theorem witness_ControlRegistersAndOtherSources : ViaAt demoOn 0 demoVia busChip diskChip := demoVia_at

theorem witness_TpiPlainRegisters : TpiAt demoOn 1 demoTpi demoChip := demoTpi_at

/-- Interrupt mode, and (after `SYS.RESET`) ordinary mode. -/
theorem witness_TpiPortCRead :
    TpiAt demoOn 1 demoTpi demoChip ∧ bitAt demoChip.cr demoOn.params.tpiCr.mc = true ∧
    TpiAt (tpiState tpi0) 0 { Drive.afterReset 0 with ctl := .tpi tpi0 } tpi0 ∧
    bitAt tpi0.cr (tpiState tpi0).params.tpiCr.mc = false :=
  ⟨demoTpi_at, by decide, ⟨rfl, rfl, rfl⟩, by decide⟩

/-- Priorized with the highest source 4 and with source 0 alone, with nothing pending, and
non-priorized. -/
theorem witness_AirRead :
    let at0 := fun c : TpiChip => TpiAt (tpiState c) 0 { Drive.afterReset 0 with ctl := .tpi c } c
    let highest := fun (c : TpiChip) (i : Fin 5) => c.air.getLsbD i.val = true ∧
      ∀ j : Fin 5, i < j → c.air.getLsbD j.val = false
    let c4 : TpiChip := { tpi0 with cr := 0x03, air := 0x1F }
    let c0 : TpiChip := { tpi0 with cr := 0x03, air := 0x01 }
    let none : TpiChip := { tpi0 with cr := 0x03 }
    let all : TpiChip := { tpi0 with cr := 0x01, air := 0x1F }
    let ip := fun c : TpiChip => bitAt c.cr defaultParams.tpiCr.ip
    (at0 c4 ∧ ip c4 = true ∧ highest c4 4) ∧ (at0 c0 ∧ ip c0 = true ∧ highest c0 0) ∧
    (at0 none ∧ ip none = true ∧ none.air.extractLsb' 0 5 = 0) ∧ at0 all ∧ ip all = false :=
  ⟨⟨⟨rfl, rfl, rfl⟩, by decide, by decide, by decide⟩, ⟨⟨rfl, rfl, rfl⟩, by decide, by decide, by decide⟩,
    ⟨⟨rfl, rfl, rfl⟩, by decide, by decide⟩, ⟨rfl, rfl, rfl⟩, by decide⟩

theorem witness_AcknowledgeFollowsPortC : TpiAt demoOn 1 demoTpi demoChip := demoTpi_at

/-- Source 0 falls (it fires); sources 1 and 4 are pending already (they do not). -/
theorem witness_InterruptInput :
    TpiAt demoOn 1 demoTpi demoChip ∧
    (bitAt demoChip.cr demoOn.params.tpiCr.mc = true ∧ demoChip.irqLevel[(0 : Fin 5)] ≠ false ∧
      demoChip.ddrc.getLsbD 0 = true ∧ demoChip.air.getLsbD 0 = false) ∧
    ¬ demoChip.air.getLsbD 1 = false ∧ ¬ demoChip.air.getLsbD 4 = false :=
  ⟨demoTpi_at, by decide, by decide, by decide⟩

theorem witness_HostHandshake :
    demoOff.drives[1]? = some offTpi ∧ offTpi.ctl = .tpi { tpi0 with hsDav := false } ∧
    demoOff.Sound ∧ offTpi.powered = false ∧
    demoOn.drives[1]? = some demoTpi ∧ demoTpi.ctl = .tpi demoChip ∧ demoTpi.powered = true :=
  ⟨rfl, rfl, demoOff_sound, rfl, rfl, rfl, rfl⟩

theorem witness_IrqUpdateResult :
    demoOn.drives[0]? = some demoVia ∧ demoVia.ctl = .via busChip diskChip ∧ demoVia.powered = true ∧
    demoOn.drives[1]? = some demoTpi ∧ demoTpi.ctl = .tpi demoChip ∧ demoTpi.powered = true ∧
    demoOff.drives[0]? = some offVia ∧ offVia.powered = false := ⟨rfl, rfl, rfl, rfl, rfl, rfl, rfl, rfl⟩

/-- Armed, with a powered drive (and with one that is off), and disarmed. -/
theorem witness_IrqRetryResult :
    demoOn.retryArmed = true ∧ demoOn.drives[0]? = some demoVia ∧ demoVia.powered = true ∧
    ({ demoOff with retryArmed := true } : State).retryArmed = true ∧
    ({ demoOff with retryArmed := true } : State).drives[0]? = some offVia ∧ offVia.powered = false ∧
    State.reset.retryArmed = false := ⟨rfl, rfl, rfl, rfl, rfl, rfl, rfl⟩

end Sys2Proof.Tests
end

section
/-! What no operation changes for as long as the machine lives (R3, R6, R49, R196), read off a state
as its `traits`: every shared operation keeps the traits, and `exec` acts on them as
`Traits.after` says, so that a statement about them needs no further look into `exec`. -/

namespace Sys2Proof.Machine

-- One theorem after another: side by side each takes a thread and its stack.
set_option Elab.async false

/-! ### The traits of a drive and of a state -/

/-- The variant of a controller (R3): is it the VIA pair? -/
def Controller.isVia : Controller → Bool
  | .via _ _ => true
  | .tpi _ => false

theorem Controller.isVia_iff (c : Controller) : c.isVia = true ↔ ∃ b dd, c = .via b dd := by
  cases c <;> simp [Controller.isVia]

/-- The fields of a drive that few operations or none write. -/
structure DriveTraits where
  devSel : Bits2
  isVia : Bool
  powered : Bool
  wp : Bool

/-- `y` with `powered` set to `v`. -/
def DriveTraits.setPowered (v : Bool) (y : DriveTraits) : DriveTraits := { y with powered := v }

/-- `y` with `wp` set to `v`. -/
def DriveTraits.setWp (v : Bool) (y : DriveTraits) : DriveTraits := { y with wp := v }

/-- What of a state few operations or none write. -/
structure Traits where
  params : Params
  requests : List Request
  participants : Nat
  drives : List DriveTraits

/-- The traits a drive shows. -/
def Drive.traits (dr : Drive) : DriveTraits := ⟨dr.devSel, dr.ctl.isVia, dr.powered, dr.wp⟩

/-- The traits a state shows. -/
def State.traits (s : State) : Traits :=
  ⟨s.params, s.requests, s.bus.latches.length, s.drives.map Drive.traits⟩

/-- Change the traits of one drive. -/
def Traits.mapDrive (x : Traits) (d : Nat) (g : DriveTraits → DriveTraits) : Traits :=
  { x with drives := x.drives.modify d g }

/-- What an operation makes of the traits: power only by `SYS.PWRON` and `SYS.PWROFF`, write protect
only by a mount or an unmount (R49, R196), all else never (R3, R6). -/
def Traits.after (x : Traits) : Instr → Traits
  | .sysPwron d => x.mapDrive d (.setPowered true)
  | .sysPwroff d => x.mapDrive d (.setPowered false)
  | .sysMount d _ _ _ wp => x.mapDrive d (.setWp wp)
  | .sysUnmount d => x.mapDrive d (.setWp false)
  | _ => x

/-! ### What the parts of a drive's operations do to its traits -/

@[simp] theorem Controller.mapVia_isVia (c : ViaId) (f : ViaChip → ViaChip) (k : Controller) :
    (k.mapVia c f).isVia = k.isVia := by
  cases k <;> cases c <;> rfl

@[simp] theorem Controller.mapTpi_isVia (f : TpiChip → TpiChip) (k : Controller) :
    (k.mapTpi f).isVia = k.isVia := by
  cases k <;> rfl

@[simp] theorem Controller.updateIrq_isVia (P : Params) (k : Controller) :
    (k.updateIrq P).isVia = k.isVia := by
  cases k <;> rfl

@[simp] theorem Controller.clear_isVia (k : Controller) : k.clear.isVia = k.isVia := by
  cases k <;> rfl

@[simp] theorem Controller.clearRetry_isVia (k : Controller) : k.clearRetry.isVia = k.isVia := by
  cases k <;> rfl

@[simp] theorem Controller.deliver_isVia (k : Controller) : k.deliver.isVia = k.isVia := by
  cases k <;> rfl

@[simp] theorem Drive.regen_traits (P : Params) (dr : Drive) : (dr.regen P).traits = dr.traits := by
  simp [Drive.traits]

@[simp] theorem Drive.updateIrq_traits (P : Params) (dr : Drive) :
    (dr.updateIrq P).traits = dr.traits := by
  simp [Drive.traits]

@[simp] theorem Drive.moveHead_traits (P : Params) (dr : Drive) (n : Nat) :
    (dr.moveHead P n).traits = dr.traits := by
  obtain ⟨hsel, hpow, hwp, -, hctl, -⟩ := moveHead_rest P dr n
  simp only [Drive.traits, hsel, hpow, hwp, hctl]

@[simp] theorem Drive.step_traits (P : Params) (dr : Drive) (new : Bits2) :
    (dr.step P new).traits = dr.traits :=
  Drive.moveHead_traits ..

@[simp] theorem Drive.setMotorZone_traits (P : Params) (dr : Drive) (m : Bool) (z : Bits2) :
    (dr.setMotorZone P m z).traits = dr.traits := by
  unfold Drive.setMotorZone
  split
  · rfl
  · split <;> rfl

@[simp] theorem Drive.control_traits (P : Params) (dr : Drive) (c : Byte) :
    (dr.control P c).traits = dr.traits := by
  simp [Drive.control]

@[simp] theorem Drive.advance_traits (P : Params) (dr : Drive) :
    (dr.advance P).traits = dr.traits := by
  unfold Drive.advance
  split
  · rfl
  · split
    · rfl
    · exact Drive.regen_traits ..

@[simp] theorem Drive.detectSync_traits (dr : Drive) : dr.detectSync.traits = dr.traits := rfl

@[simp] theorem Drive.resetMech_traits (P : Params) (dr : Drive) :
    (dr.resetMech P).traits = dr.traits :=
  Drive.regen_traits ..

@[simp] theorem Drive.powerOff_traits (dr : Drive) :
    dr.powerOff.traits = dr.traits.setPowered false := rfl

@[simp] theorem Drive.mount_traits (P : Params) (dr : Drive) (im : Image) (wp : Bool) :
    (dr.mount P im wp).traits = dr.traits.setWp wp :=
  Drive.regen_traits ..

@[simp] theorem Drive.unmount_traits (P : Params) (dr : Drive) :
    (dr.unmount P).traits = dr.traits.setWp false := by
  simp [Drive.traits, DriveTraits.setWp]

@[simp] theorem Drive.notified_traits (P : Params) (l : Line) (v : Bool) (dr : Drive) :
    (Drive.notified P l v dr).traits = dr.traits := by
  have hflag : (dr.setCa1 P .viab true).traits = dr.traits := by
    simp [Drive.setCa1, Drive.traits]
  unfold Drive.notified
  split
  · split
    · exact hflag
    · rfl
  · rfl

/-! ### What the shared operations do to the traits of a state -/

theorem map_modify {α β : Type} {f : α → α} {g : β → β} {h : α → β} (hfg : ∀ x, h (f x) = g (h x))
    (l : List α) (d : Nat) : (l.modify d f).map h = (l.map h).modify d g := by
  apply List.ext_getElem?
  intro n
  simp only [List.getElem?_map, List.getElem?_modify]
  by_cases hn : d = n <;> cases l[n]? <;> simp [hn, hfg]

theorem mapDrive_traits {f : Drive → Drive} {g : DriveTraits → DriveTraits}
    (hfg : ∀ dr, (f dr).traits = g dr.traits) (s : State) (d : Nat) :
    (s.mapDrive d f).traits = s.traits.mapDrive d g := by
  simp [State.traits, Traits.mapDrive, map_modify hfg]

@[simp] theorem mapDrive_keeps_traits {f : Drive → Drive} (hf : ∀ dr, (f dr).traits = dr.traits)
    (s : State) (d : Nat) : (s.mapDrive d f).traits = s.traits := by
  rw [mapDrive_traits (g := id) hf]
  simp [Traits.mapDrive]

@[simp] theorem mapCtl_keeps_traits {f : Controller → Controller} (hf : ∀ k, (f k).isVia = k.isVia)
    (s : State) (d : Nat) : (s.mapCtl d f).traits = s.traits :=
  mapDrive_keeps_traits (fun dr => by simp [Drive.traits, hf]) s d

@[simp] theorem mapTpi_traits (s : State) (d : Nat) (f : TpiChip → TpiChip) :
    (s.mapTpi d f).traits = s.traits :=
  mapCtl_keeps_traits (by simp) s d

@[simp] theorem emit_traits (s : State) (e : Event) : (s.emit e).traits = s.traits := rfl

@[simp] theorem returns_traits (s : State) (r : Result) : (s.returns r).traits = s.traits := rfl

@[simp] theorem drawn_traits (s : State) : s.drawn.traits = s.traits := rfl

@[simp] theorem recountRetry_traits (s : State) : s.recountRetry.traits = s.traits := rfl

@[simp] theorem setLatch_traits (s : State) (p : Nat) (l : Line) (v : Bool) :
    (s.setLatch p l v).traits = s.traits := by
  simp [State.traits]

@[simp] theorem setLine_traits (s : State) (l : Line) (v : Bool) :
    (s.setLine l v).traits = s.traits := rfl

@[simp] theorem irqUpdate_traits (s : State) (d : Nat) : (s.irqUpdate d).traits = s.traits := by
  have hkeep := mapDrive_keeps_traits (Drive.updateIrq_traits s.params) s d
  simpa [State.traits] using hkeep

@[simp] theorem setCa1_traits (s : State) (d : Nat) (c : ViaId) (v : Bool) :
    (s.setCa1 d c v).traits = s.traits := by
  simp [State.setCa1]

/-- A fold of operations that keep the traits keeps them. -/
theorem foldl_keeps_traits {α : Type} {f : State → α → State}
    (hf : ∀ s x, (f s x).traits = s.traits) (l : List α) (s : State) :
    (l.foldl f s).traits = s.traits := by
  induction l generalizing s with
  | nil => rfl
  | cons x l ih => rw [List.foldl_cons, ih, hf]

@[simp] theorem notify_traits (s : State) (q : Nat) (l : Line) (v : Bool) :
    (s.notify q l v).traits = s.traits := by
  cases q with
  | zero => rfl
  | succ d =>
    have hkeep := mapDrive_keeps_traits (Drive.notified_traits s.params l v) s d
    simpa [State.traits] using hkeep

@[simp] theorem notifyAll_traits (s : State) (l : Line) (v : Bool) :
    (s.notifyAll l v).traits = s.traits :=
  foldl_keeps_traits (fun s q => notify_traits s q l v) _ s

@[simp] theorem busSet_traits (s : State) (p : Nat) (l : Line) (v : Bool) :
    (s.busSet p l v).traits = s.traits := by
  rcases busSet_cases s p l v with ⟨-, h⟩ | ⟨-, h⟩ <;> simp [h]

@[simp] theorem applyBusOutputs_traits (s : State) (d : Nat) :
    (s.applyBusOutputs d).traits = s.traits := by
  unfold State.applyBusOutputs
  split
  · rfl
  · split <;> simp

@[simp] theorem mechCtrl_traits (s : State) (d : Nat) (c : Byte) :
    (s.mechCtrl d c).traits = s.traits := by
  simp [State.mechCtrl]

@[simp] theorem applyControl_traits (s : State) (d : Nat) :
    (s.applyControl d).traits = s.traits := by
  unfold State.applyControl
  split
  · rfl
  · split <;> simp

@[simp] theorem applyPortB_traits (s : State) (d : Nat) (c : ViaId) :
    (applyPortB s d c).traits = s.traits := by
  cases c <;> simp [applyPortB]

@[simp] theorem ready_traits (s : State) (d : Nat) : (s.ready d).traits = s.traits := by
  unfold State.ready
  split
  · rfl
  · split <;> simp

@[simp] theorem tick_traits (s : State) (d : Nat) : (s.tick d).traits = s.traits := by
  simp [State.tick]

@[simp] theorem chipReset_traits (s : State) (d : Nat) : (s.chipReset d).traits = s.traits := by
  simp [State.chipReset]

@[simp] theorem resetDrive_traits (s : State) (d : Nat) : (s.resetDrive d).traits = s.traits := by
  simp [State.resetDrive]

@[simp] theorem retryDrive_traits (s : State) (d : Nat) : (s.retryDrive d).traits = s.traits := by
  unfold State.retryDrive
  split
  · rfl
  · split
    · rw [mapCtl_keeps_traits Controller.deliver_isVia, foldl_keeps_traits fun _ _ => emit_traits ..]
    · rfl

/-! ### What an operation does to the traits -/

/-- Where the outcome is a next state, that state's traits are `x`. -/
def LeadsTo (o : Out) (x : Traits) : Prop := ∀ t, o = .next t → t.traits = x

theorem leadsTo_refused (r : Refusal) (x : Traits) : LeadsTo (.refused r) x :=
  fun _ h => by cases h

theorem leadsTo_done {s : State} {r : Result} {x : Traits} (h : s.traits = x) :
    LeadsTo (done s r) x := by
  intro t ht
  rw [done_eq_next] at ht
  rw [← ht, returns_traits, h]

theorem leadsTo_onDrive {s : State} {d : Nat} {k : Drive → Out} {x : Traits}
    (hk : ∀ dr, LeadsTo (k dr) x) : LeadsTo (onDrive s d k) x := by
  intro t h
  obtain ⟨dr, -, h⟩ := onDrive_next h
  exact hk dr t h

theorem leadsTo_onPowered {s : State} {d : Nat} {k : Drive → Out} {x : Traits}
    (hk : ∀ dr, LeadsTo (k dr) x) : LeadsTo (onPowered s d k) x := by
  intro t h
  obtain ⟨dr, -, -, h⟩ := onPowered_next h
  exact hk dr t h

theorem leadsTo_onVia {s : State} {d : Nat} {k : Drive → ViaChip → ViaChip → Out} {x : Traits}
    (hk : ∀ dr b dd, LeadsTo (k dr b dd) x) : LeadsTo (onVia s d k) x := by
  intro t h
  obtain ⟨dr, b, dd, -, -, -, h⟩ := onVia_next h
  exact hk dr b dd t h

theorem leadsTo_onTpiDrive {s : State} {d : Nat} {k : Drive → TpiChip → Out} {x : Traits}
    (hk : ∀ dr c, LeadsTo (k dr c) x) : LeadsTo (onTpiDrive s d k) x := by
  intro t h
  obtain ⟨dr, c, -, -, h⟩ := onTpiDrive_next h
  exact hk dr c t h

theorem leadsTo_onTpi {s : State} {d : Nat} {k : Drive → TpiChip → Out} {x : Traits}
    (hk : ∀ dr c, LeadsTo (k dr c) x) : LeadsTo (onTpi s d k) x := by
  intro t h
  obtain ⟨dr, c, -, -, -, h⟩ := onTpi_next h
  exact hk dr c t h

theorem leadsTo_onParticipant {s : State} {p : Nat} {k : Out} {x : Traits} (hk : LeadsTo k x) :
    LeadsTo (onParticipant s p k) x := by
  intro t h
  exact hk t (onParticipant_next h).1

theorem sysReset_traits (s : State) : LeadsTo (execSysReset s) s.traits := by
  refine leadsTo_done ?_
  refine (foldl_keeps_traits resetDrive_traits _ _).trans ?_
  simp [State.traits]

theorem sysPwron_traits (d : Nat) (s : State) :
    LeadsTo (execSysPwron d s) (s.traits.mapDrive d (.setPowered true)) := by
  refine leadsTo_onDrive fun dr => ?_
  split
  · exact leadsTo_refused _ _
  · refine leadsTo_done ?_
    rw [chipReset_traits]
    exact mapDrive_traits (fun _ => rfl) s d

theorem sysPwroff_traits (d : Nat) (s : State) :
    LeadsTo (execSysPwroff d s) (s.traits.mapDrive d (.setPowered false)) := by
  refine leadsTo_onPowered fun _ => leadsTo_done ?_
  simp only [recountRetry_traits, busSet_traits]
  rw [mapDrive_traits Drive.powerOff_traits, chipReset_traits]

theorem sysMount_traits (d : Nat) (f : Format) (bytes : List Host.Cell) (len : Nat) (wp : Bool)
    (s : State) :
    LeadsTo (execSysMount d f bytes len wp s) (s.traits.mapDrive d (.setWp wp)) := by
  refine leadsTo_onDrive fun dr => ?_
  split
  · exact leadsTo_refused _ _
  · exact leadsTo_done (mapDrive_traits (fun _ => Drive.mount_traits ..) s d)

theorem sysUnmount_traits (d : Nat) (s : State) :
    LeadsTo (execSysUnmount d s) (s.traits.mapDrive d (.setWp false)) :=
  leadsTo_onDrive fun _ => leadsTo_done (mapDrive_traits (Drive.unmount_traits s.params) s d)

theorem tpiRdPc_traits (d : Nat) (s : State) : LeadsTo (execTpiRdPc d s) s.traits := by
  refine leadsTo_onTpi fun dr t => ?_
  dsimp only
  split <;> exact leadsTo_done rfl

theorem tpiIrqin_traits (d : Nat) (n : Fin 5) (level : Bool) (s : State) :
    LeadsTo (execTpiIrqin d n level s) s.traits := by
  refine leadsTo_onTpi fun dr t => leadsTo_done ?_
  split <;> simp

theorem mechTick_traits (d : Nat) (s : State) : LeadsTo (execMechTick d s) s.traits := by
  refine leadsTo_onDrive fun dr => ?_
  split
  · exact leadsTo_done (tick_traits s d)
  · exact leadsTo_refused _ _

theorem irqRetry_traits (s : State) : LeadsTo (execIrqRetry s) s.traits := by
  unfold execIrqRetry
  split
  · exact leadsTo_done (foldl_keeps_traits retryDrive_traits _ s)
  · exact leadsTo_refused _ _

theorem busNotify_traits (q : Nat) (l : Line) (v : Bool) (s : State) :
    LeadsTo (execBusNotify q l v s) s.traits := by
  unfold execBusNotify
  split
  · exact leadsTo_done (notify_traits ..)
  · exact leadsTo_refused _ _

theorem parWrdata_traits (v : Byte) (s : State) : LeadsTo (execParWrdata v s) s.traits := by
  refine leadsTo_done ?_
  split <;> rfl

theorem parWrack_traits (v : Bool) (s : State) : LeadsTo (execParWrack v s) s.traits := by
  refine leadsTo_done ?_
  split <;> rfl

theorem dskOffset_traits (table : List Nat) (track sector : Nat) (s : State) :
    LeadsTo (execDskOffset table track sector s) s.traits := by
  unfold execDskOffset
  split
  · exact leadsTo_refused _ _
  · exact leadsTo_done rfl

/-- Every operation acts on the traits as `Traits.after` says. -/
theorem exec_traits (i : Instr) (s : State) : LeadsTo (exec i s) (s.traits.after i) := by
  cases i with
  | sysReset => exact sysReset_traits s
  | sysPwron d => exact sysPwron_traits d s
  | sysPwroff d => exact sysPwroff_traits d s
  | sysMount d f bytes len wp => exact sysMount_traits d f bytes len wp s
  | sysUnmount d => exact sysUnmount_traits d s
  | mechTick d => exact mechTick_traits d s
  | irqRetry => exact irqRetry_traits s
  | mechCtrl d | mechRegen d | mechStep d | irqUpdate d =>
    exact leadsTo_onPowered fun _ => leadsTo_done (by simp [Traits.after])
  | viabRdPb d | viadRdPb d | viaRdDdrb d | viaRdDdra d | viaRdCt d =>
    exact leadsTo_onVia fun _ _ _ => leadsTo_done rfl
  | viabRdPa d | viabWrPb d | viabWrPa d | viadRdPa d | viadWrPb d | viadWrPa d | viaWrDdrb d
  | viaWrDdra d | viaWrCt d | viaOtherirq d =>
    exact leadsTo_onVia fun _ _ _ => leadsTo_done (by simp [Traits.after])
  | tpiRdPa d | tpiRdPb d | tpiRdDdra d | tpiRdDdrb d | tpiRdDdrc d | tpiRdCr d | tpiWrAir d =>
    exact leadsTo_onTpi fun _ _ => leadsTo_done rfl
  | tpiRdAir d | tpiWrPa d | tpiWrPb d | tpiWrPc d | tpiWrDdra d | tpiWrDdrb d | tpiWrDdrc d
  | tpiWrCr d | tpiHostwr d =>
    exact leadsTo_onTpi fun _ _ => leadsTo_done (by simp [Traits.after])
  | tpiRdPc d => exact tpiRdPc_traits d s
  | tpiIrqin d n level => exact tpiIrqin_traits d n level s
  | tpiHostrd d => exact leadsTo_onTpiDrive fun _ _ => leadsTo_done rfl
  | busSet p l v => exact leadsTo_onParticipant (leadsTo_done (busSet_traits s p l v))
  | busNotify q l v => exact busNotify_traits q l v s
  | parWrdata v => exact parWrdata_traits v s
  | parWrack v => exact parWrack_traits v s
  | dskOffset table track sector => exact dskOffset_traits table track sector s
  | busGet | parEnable | parRddata | parRdack | gcrEnc4 | gcrDec5 | gcrEncsec | gcrDechdr
  | gcrDecdata | dskBuild => exact leadsTo_done rfl

/-! ### What is fixed for life -/

theorem traits_after_fixed (x : Traits) (i : Instr) :
    (x.after i).params = x.params ∧ (x.after i).requests = x.requests ∧
    (x.after i).participants = x.participants ∧ (x.after i).drives.length = x.drives.length := by
  unfold Traits.after
  split <;> simp [Traits.mapDrive]

/-- What an operation leaves of the traits `y` of drive `d`, now `y'`. -/
structure DriveTraits.Lasts (i : Instr) (d : Nat) (y y' : DriveTraits) : Prop where
  devSel : y'.devSel = y.devSel
  isVia : y'.isVia = y.isVia
  powered : i ≠ .sysPwron d → i ≠ .sysPwroff d → y'.powered = y.powered
  wp : touchesImage i = false → y'.wp = y.wp

theorem DriveTraits.Lasts.refl (i : Instr) (d : Nat) (y : DriveTraits) : y.Lasts i d y :=
  ⟨rfl, rfl, fun _ _ => rfl, fun _ => rfl⟩

/-- A change of drive `e` lasts for every drive, if it does for drive `e`. -/
theorem mapDrive_lasts {i : Instr} {x : Traits} {e d : Nat} {g : DriveTraits → DriveTraits}
    {y y' : DriveTraits} (hy : x.drives[d]? = some y)
    (hy' : (x.mapDrive e g).drives[d]? = some y') (hg : ∀ z : DriveTraits, z.Lasts i e (g z)) :
    y.Lasts i d y' := by
  simp only [Traits.mapDrive, List.getElem?_modify, hy, Option.map_eq_map, Option.map_some,
    Option.some.injEq] at hy'
  subst hy'
  split
  · subst e
    exact hg y
  · exact .refl i d y

theorem traits_after_drive {i : Instr} {x : Traits} {d : Nat} {y y' : DriveTraits}
    (hy : x.drives[d]? = some y) (hy' : (x.after i).drives[d]? = some y') : y.Lasts i d y' := by
  cases i with
  | sysPwron e =>
    exact mapDrive_lasts hy hy' fun _ => ⟨rfl, rfl, fun h => absurd rfl h, fun _ => rfl⟩
  | sysPwroff e =>
    exact mapDrive_lasts hy hy' fun _ => ⟨rfl, rfl, fun _ h => absurd rfl h, fun _ => rfl⟩
  | sysMount e => exact mapDrive_lasts hy hy' fun _ => ⟨rfl, rfl, fun _ _ => rfl, nofun⟩
  | sysUnmount e => exact mapDrive_lasts hy hy' fun _ => ⟨rfl, rfl, fun _ _ => rfl, nofun⟩
  | _ =>
    obtain rfl := Option.some.inj (hy.symm.trans hy')
    exact .refl _ d y

theorem traits_drives_of_some {s : State} {d : Nat} {dr : Drive} (h : s.drives[d]? = some dr) :
    s.traits.drives[d]? = some dr.traits := by
  simp [State.traits, h]

/-- Settles O12: the traits after an operation are `Traits.after` of those before. -/
theorem whatIsFixedForLife : Obligations.WhatIsFixedForLife := by
  intro i s t h
  have htraits : t.traits = s.traits.after i := exec_traits i s t h
  obtain ⟨hparams, hrequests, hparts, hlength⟩ := traits_after_fixed s.traits i
  rw [← htraits] at hparams hrequests hparts hlength
  refine ⟨hparams, hrequests, hparts, by simpa [State.traits] using hlength, ?_⟩
  intro d dr dr' hdr hdr'
  have hafter := traits_drives_of_some hdr'
  rw [htraits] at hafter
  obtain ⟨hsel, hvia, hpow, hwp⟩ := traits_after_drive (traits_drives_of_some hdr) hafter
  refine ⟨hsel, ?_, hpow, hwp⟩
  rw [← Controller.isVia_iff, ← Controller.isVia_iff]
  exact Bool.eq_iff_iff.1 hvia

end Sys2Proof.Machine
end

section
/-! One step: when there is one, and when `onAgent` refuses it (R8, R292). -/

namespace Sys2Proof.Machine

set_option Elab.async false

theorem step_nil {s : State} (h : s.requests = []) : step s = .refused .noOperation := by
  simp [step, h]

theorem step_cons {s : State} {r : Request} {rest : List Request} {i : Instr}
    (hr : s.requests = r :: rest) (hi : decode r = .ok i) :
    step s = onAgent s r.agent (exec i (s.withRequests rest)) := by
  simp [step, hr, hi]

theorem onDrive_of_some {s : State} {d : Nat} {dr : Drive} (h : s.drives[d]? = some dr)
    (k : Drive → Out) : onDrive s d k = k dr := by
  simp [onDrive, h]

theorem onDrive_of_none {s : State} {d : Nat} (h : s.drives[d]? = none) (k : Drive → Out) :
    onDrive s d k = .refused (.noSuchDrive d) := by
  simp [onDrive, h]

theorem onPowered_of_on {s : State} {d : Nat} {dr : Drive} (h : s.drives[d]? = some dr)
    (hp : dr.powered = true) (k : Drive → Out) : onPowered s d k = k dr := by
  simp [onPowered, onDrive_of_some h, hp]

theorem onPowered_of_off {s : State} {d : Nat} {dr : Drive} (h : s.drives[d]? = some dr)
    (hp : dr.powered = false) (k : Drive → Out) :
    onPowered s d k = .refused (.drivePoweredOff d) := by
  simp [onPowered, onDrive_of_some h, hp]

theorem onPowered_of_none {s : State} {d : Nat} (h : s.drives[d]? = none) (k : Drive → Out) :
    onPowered s d k = .refused (.noSuchDrive d) :=
  onDrive_of_none h _

/-- An agent that is no drive's CPU, or the CPU of a powered drive, runs (R292). -/
theorem onAgent_of_runs {s : State} {a : Agent}
    (ha : ∀ d, a = .driveCpu d → ∃ dr, s.drives[d]? = some dr ∧ dr.powered = true) (k : Out) :
    onAgent s a k = k := by
  cases a with
  | driveCpu d =>
    obtain ⟨dr, hdr, hp⟩ := ha d rfl
    exact onPowered_of_on hdr hp _
  | _ => rfl

/-- Settles O5: `step` is `onAgent` of the decoded operation, and the drive's CPU is the one agent
that `onAgent` can refuse. -/
theorem stepRunsDecodedOperation : Obligations.StepRunsDecodedOperation := by
  refine ⟨fun s r rest i hr hi => ?_, fun s => step_nil⟩
  rw [step_cons hr hi]
  refine ⟨fun ha => onAgent_of_runs ha _, fun d ha hdr => ?_, fun d dr ha hdr hp => ?_⟩
  · rw [ha]
    exact onPowered_of_none hdr _
  · rw [ha]
    exact onPowered_of_off hdr hp _

end Sys2Proof.Machine
end

section
/-! What holds after an operation that has a step, read through the checks in front of it. -/

namespace Sys2Proof.Machine

set_option Elab.async false

/-- Where the outcome is a next state, `Q` holds of that state. -/
def Ensures (o : Out) (Q : State → Prop) : Prop := ∀ t, o = .next t → Q t

theorem ensures_refused (r : Refusal) (Q : State → Prop) : Ensures (.refused r) Q :=
  fun _ h => by cases h

theorem ensures_done {s : State} {r : Result} {Q : State → Prop} (h : Q (s.returns r)) :
    Ensures (done s r) Q := by
  intro t ht
  rw [done_eq_next] at ht
  exact ht ▸ h

theorem ensures_onDrive {s : State} {d : Nat} {k : Drive → Out} {Q : State → Prop}
    (hk : ∀ dr, s.drives[d]? = some dr → Ensures (k dr) Q) : Ensures (onDrive s d k) Q := by
  intro t h
  obtain ⟨dr, hdr, h⟩ := onDrive_next h
  exact hk dr hdr t h

theorem ensures_onPowered {s : State} {d : Nat} {k : Drive → Out} {Q : State → Prop}
    (hk : ∀ dr, s.drives[d]? = some dr → dr.powered = true → Ensures (k dr) Q) :
    Ensures (onPowered s d k) Q := by
  intro t h
  obtain ⟨dr, hdr, hon, h⟩ := onPowered_next h
  exact hk dr hdr hon t h

theorem ensures_onVia {s : State} {d : Nat} {k : Drive → ViaChip → ViaChip → Out}
    {Q : State → Prop}
    (hk : ∀ dr b dd, s.drives[d]? = some dr → dr.powered = true → Ensures (k dr b dd) Q) :
    Ensures (onVia s d k) Q := by
  intro t h
  obtain ⟨dr, b, dd, hdr, -, hon, h⟩ := onVia_next h
  exact hk dr b dd hdr hon t h

theorem ensures_onTpiDrive {s : State} {d : Nat} {k : Drive → TpiChip → Out} {Q : State → Prop}
    (hk : ∀ dr c, s.drives[d]? = some dr → Ensures (k dr c) Q) : Ensures (onTpiDrive s d k) Q := by
  intro t h
  obtain ⟨dr, c, hdr, -, h⟩ := onTpiDrive_next h
  exact hk dr c hdr t h

theorem ensures_onTpi {s : State} {d : Nat} {k : Drive → TpiChip → Out} {Q : State → Prop}
    (hk : ∀ dr c, s.drives[d]? = some dr → dr.powered = true → Ensures (k dr c) Q) :
    Ensures (onTpi s d k) Q := by
  intro t h
  obtain ⟨dr, c, hdr, -, hon, h⟩ := onTpi_next h
  exact hk dr c hdr hon t h

theorem ensures_onParticipant {s : State} {p : Nat} {k : Out} {Q : State → Prop}
    (hk : (p = 0 ∨ ∃ dr, s.drives[p - 1]? = some dr ∧ dr.powered = true) → Ensures k Q) :
    Ensures (onParticipant s p k) Q := by
  intro t h
  obtain ⟨h, hp⟩ := onParticipant_next h
  exact hk hp t h

end Sys2Proof.Machine
end

section
/-! The invariant of one drive (`Drive.Sound`): what a register write, `IRQ.UPDATE` and each
operation of the mechanism keep of it (R31 to R35, R45, R190, R275 to R277). -/

namespace Sys2Proof.Machine

set_option Elab.async false

/-! ### Controllers -/

/-- `Controller.IrqCurrent` in the words of the output function (R275). -/
theorem irqCurrent_via (P : Params) (b dd : ViaChip) :
    (Controller.via b dd).IrqCurrent P ↔ b.chipIrq = viaIrqFn P b ∧ dd.chipIrq = viaIrqFn P dd :=
  Iff.rfl

/-- R275: `IRQ.UPDATE` leaves every stored output current. -/
theorem updateIrq_current (P : Params) (k : Controller) : (k.updateIrq P).IrqCurrent P := by
  cases k with
  | via b dd => exact ⟨(latch_chipIrq ..).trans (viaIrqFn_latch ..).symm,
      (latch_chipIrq ..).trans (viaIrqFn_latch ..).symm⟩
  | tpi t => exact (tlatch_chipIrq ..).trans (tpiIrqFn_latch ..).symm

/-- What a controller must meet for `IRQ.UPDATE` to make it sound: all but current outputs. -/
structure Controller.UpdateReady (k : Controller) : Prop where
  waiting : k.RetryRequests
  air : k.AirClean

theorem mapVia_updateReady {k : Controller} (hk : k.UpdateReady) (c : ViaId)
    {f : ViaChip → ViaChip} (hf : ∀ x, (f x).chipIrq = x.chipIrq ∧ (f x).irqRetry = x.irqRetry) :
    (k.mapVia c f).UpdateReady := by
  obtain ⟨hwait, hair⟩ := hk
  cases k with
  | tpi t => exact ⟨hwait, hair⟩
  | via b dd =>
    refine ⟨?_, by cases c <;> trivial⟩
    cases c <;> simpa [Controller.mapVia, Controller.RetryRequests, hf] using hwait

theorem mapTpi_updateReady {k : Controller} (hk : k.UpdateReady) {f : TpiChip → TpiChip}
    (hf : ∀ x, (f x).chipIrq = x.chipIrq ∧ (f x).irqRetry = x.irqRetry)
    (hair : ∀ x, x.air.extractLsb' 5 3 = 0 → (f x).air.extractLsb' 5 3 = 0) :
    (k.mapTpi f).UpdateReady := by
  obtain ⟨hwait, hclean⟩ := hk
  cases k with
  | via b dd => exact ⟨hwait, hclean⟩
  | tpi t =>
    exact ⟨by simpa [Controller.mapTpi, Controller.RetryRequests, hf] using hwait, hair t hclean⟩

theorem clear_updateReady {k : Controller} (hk : k.UpdateReady) : k.clear.UpdateReady := by
  obtain ⟨hwait, -⟩ := hk
  cases k with
  | via b dd => exact ⟨hwait, trivial⟩
  | tpi t => exact ⟨hwait, by simp [Controller.clear, Controller.AirClean, TpiChip.clear]⟩

/-- R301: with its registers cleared, no chip requests. -/
theorem clear_updateIrq_request (P : Params) (k : Controller) :
    (k.clear.updateIrq P).request = false := by
  cases k with
  | via b dd =>
    simp [Controller.clear, Controller.updateIrq, Controller.request, viaIrqFn, ViaChip.clear]
  | tpi t =>
    simp [Controller.clear, Controller.updateIrq, Controller.request, tpiIrqFn, TpiChip.clear]

theorem clear_updateIrq_ackIdle (P : Params) (k : Controller) :
    (k.clear.updateIrq P).AckIdle := by
  cases k with
  | via b dd => trivial
  | tpi t =>
    show (TpiChip.latchIrq t.clear _).hsAck = true
    unfold TpiChip.latchIrq
    split <;> rfl

/-- R277: a drive none of whose chips requests has none that waits. -/
theorem anyRetry_eq_false {k : Controller} (hwait : k.RetryRequests) (hreq : k.request = false) :
    k.anyRetry = false := by
  cases k with
  | via b dd =>
    obtain ⟨hb, hdd⟩ := hwait
    simp only [Controller.request, Bool.or_eq_false_iff] at hreq
    simp_all [Controller.anyRetry]
  | tpi t => simp_all [Controller.anyRetry, Controller.request, Controller.RetryRequests]

/-- `k'` is `k` after a register write that no interrupt output depends on. -/
structure Controller.SameIrq (P : Params) (k k' : Controller) : Prop where
  current : k.IrqCurrent P → k'.IrqCurrent P
  request : k'.request = k.request
  anyRetry : k'.anyRetry = k.anyRetry
  waiting : k.RetryRequests → k'.RetryRequests
  air : k.AirClean → k'.AirClean

theorem mapVia_sameIrq {P : Params} {f : ViaChip → ViaChip}
    (hf : ∀ x, viaIrqFn P (f x) = viaIrqFn P x ∧ (f x).chipIrq = x.chipIrq ∧
      (f x).irqRetry = x.irqRetry) (c : ViaId) (k : Controller) : k.SameIrq P (k.mapVia c f) := by
  cases k with
  | tpi t => exact ⟨id, rfl, rfl, id, id⟩
  | via b dd =>
    cases c <;>
      exact ⟨by simp [Controller.mapVia, irqCurrent_via, hf],
        by simp [Controller.mapVia, Controller.request, hf],
        by simp [Controller.mapVia, Controller.anyRetry, hf],
        by simp [Controller.mapVia, Controller.RetryRequests, hf], id⟩

theorem mapTpi_sameIrq {P : Params} {f : TpiChip → TpiChip}
    (hf : ∀ x, (f x).cr = x.cr ∧ (f x).air = x.air ∧ (f x).chipIrq = x.chipIrq ∧
      (f x).irqRetry = x.irqRetry) (k : Controller) : k.SameIrq P (k.mapTpi f) := by
  cases k with
  | via b dd => exact ⟨id, rfl, rfl, id, id⟩
  | tpi t =>
    exact ⟨by simp [Controller.mapTpi, Controller.IrqCurrent, hf],
      by simp [Controller.mapTpi, Controller.request, hf],
      by simp [Controller.mapTpi, Controller.anyRetry, hf],
      by simp [Controller.mapTpi, Controller.RetryRequests, hf],
      by simp [Controller.mapTpi, Controller.AirClean, hf]⟩

/-! ### Replacing the controller of a drive -/

/-- What the mechanism invariant reads of a drive. -/
theorem Drive.MechSound.congr {P : Params} {dr dr' : Drive} (h : dr.MechSound P)
    (hbuf : dr'.buf = dr.buf) (himg : dr'.img = dr.img) (hpos : dr'.mech.pos = dr.mech.pos)
    (hht : dr'.mech.ht = dr.mech.ht) (hsector : dr'.mech.sector = dr.mech.sector)
    (hff : dr'.mech.ffcount = dr.mech.ffcount) (hsync : dr'.mech.sync = dr.mech.sync) :
    dr'.MechSound P where
  bufferLength := hbuf ▸ h.bufferLength
  cursor := hpos ▸ h.cursor
  headLow := hht ▸ h.headLow
  headHigh := by simpa only [Drive.maxTrack, himg, hht] using h.headHigh
  sector := by simpa only [Drive.curTrack, himg, hht, hsector] using h.sector
  ffcount := hff ▸ h.ffcount
  sync := by rw [hff, hsync, h.sync]

/-- A controller with current outputs, and the CPU interrupt input it asks for, fit a sound
drive. -/
theorem Drive.Sound.withChips {P : Params} {dr : Drive} (h : dr.Sound P) {k : Controller} {b : Bool}
    (hcurrent : k.IrqCurrent P) (hready : k.UpdateReady) (hb : b = k.request)
    (hoff : dr.powered = false → b = false ∧ k.AckIdle) :
    Drive.Sound P { dr with ctl := k, cpuIrq := b } where
  mech := h.mech.congr rfl rfl rfl rfl rfl rfl rfl
  image := h.image
  timer := h.timer
  irqCurrent := hcurrent
  cpuIrq := hb
  off := fun hp => (hoff hp).1
  retry := hready.waiting
  air := hready.air
  ackOff := fun hp => (hoff hp).2

theorem Drive.Sound.updateReady {P : Params} {dr : Drive} (h : dr.Sound P) : dr.ctl.UpdateReady :=
  ⟨h.retry, h.air⟩

/-- R277: any register change of a powered drive, followed by `IRQ.UPDATE`. -/
theorem Drive.Sound.updated {P : Params} {dr : Drive} (h : dr.Sound P) (hon : dr.powered = true)
    {k : Controller} (hk : k.UpdateReady) :
    Drive.Sound P (Drive.updateIrq P { dr with ctl := k }) :=
  h.withChips (updateIrq_current P k) ⟨updateIrq_retryReq P k hk.waiting, updateIrq_air P k hk.air⟩
    rfl (fun hp => by simp [hon] at hp)

/-- R301: `chip_reset` of a drive, powered or not. -/
theorem Drive.Sound.cleared {P : Params} {dr : Drive} (h : dr.Sound P) {k : Controller}
    (hk : k.UpdateReady) : Drive.Sound P (Drive.updateIrq P { dr with ctl := k.clear }) :=
  have hclear := clear_updateReady hk
  h.withChips (updateIrq_current P _)
    ⟨updateIrq_retryReq P _ hclear.waiting, updateIrq_air P _ hclear.air⟩ rfl
    fun _ => ⟨clear_updateIrq_request P k, clear_updateIrq_ackIdle P k⟩

/-- A register write that no output depends on. -/
theorem Drive.Sound.written {P : Params} {dr : Drive} (h : dr.Sound P) (hon : dr.powered = true)
    {k : Controller} (hk : dr.ctl.SameIrq P k) : Drive.Sound P { dr with ctl := k } :=
  h.withChips (hk.current h.irqCurrent) ⟨hk.waiting h.retry, hk.air h.air⟩
    (h.cpuIrq.trans hk.request.symm) (fun hp => by simp [hon] at hp)

/-! ### The mechanism -/

/-- A change of the mechanism leaves the chips of a drive sound. -/
theorem Drive.Sound.withMech {P : Params} {dr dr' : Drive} (h : dr.Sound P)
    (hmech : dr'.MechSound P) (htimer : dr'.mech.TimerSound P dr.powered) (himg : dr'.img = dr.img)
    (hpow : dr'.powered = dr.powered) (hctl : dr'.ctl = dr.ctl) (hcpu : dr'.cpuIrq = dr.cpuIrq) :
    dr'.Sound P where
  mech := hmech
  image := himg ▸ h.image
  timer := hpow ▸ htimer
  irqCurrent := hctl ▸ h.irqCurrent
  cpuIrq := by rw [hcpu, hctl, h.cpuIrq]
  off := by rw [hpow, hcpu]; exact h.off
  retry := hctl ▸ h.retry
  air := hctl ▸ h.air
  ackOff := by rw [hpow, hctl]; exact h.ackOff

/-- The timer invariant reads four fields of the mechanism. -/
theorem Mech.TimerSound.congr {P : Params} {powered : Bool} {m m' : Mech}
    (h : m.TimerSound P powered) (hmotor : m'.motor = m.motor)
    (harmed : m'.timerArmed = m.timerArmed) (hperiod : m'.timerPeriod = m.timerPeriod)
    (hzone : m'.zone = m.zone) :
    m'.TimerSound P powered := by
  obtain ⟨h1, h2, h3, h4⟩ := h
  constructor <;> simp only [hmotor, harmed, hperiod, hzone] <;> assumption

/-- R190: a mechanism with the motor off and the timer disarmed. -/
theorem Mech.TimerSound.stopped {P : Params} {powered powered' : Bool} {m m' : Mech}
    (h : m.TimerSound P powered) (hmotor : m'.motor = false) (harmed : m'.timerArmed = false)
    (hperiod : m'.timerPeriod = m.timerPeriod) : m'.TimerSound P powered' where
  armed := by simp [hmotor, harmed]
  period := hperiod ▸ h.period
  zone := by simp [harmed]
  off := fun _ => hmotor

/-- R135: `MECH.REGEN`. -/
theorem Drive.Sound.regen {P : Params} (hP : P.wf = true) {dr : Drive} (h : dr.Sound P) :
    (dr.regen P).Sound P :=
  h.withMech (Machine.regen_mech hP h.mech) (by simpa using h.timer) (by simp) (by simp) (by simp)
    (by simp)

/-- R187: `MECH.STEP`. -/
theorem Drive.Sound.step {P : Params} (hP : P.wf = true) {dr : Drive} (h : dr.Sound P)
    (new : Bits2) : (dr.step P new).Sound P := by
  have hphase : (dr.withPhase new).MechSound P := h.mech.congr rfl rfl rfl rfl rfl rfl rfl
  obtain ⟨hlow, hhigh⟩ := steppedHt_range (old := dr.mech.phase) (new := new)
    h.mech.headLow h.mech.headHigh
  obtain ⟨-, hpow, -, himg, hctl, hcpu, hmotor, harmed, hperiod, hzone⟩ :=
    moveHead_rest P (dr.withPhase new) (steppedHt (dr.maxTrack P) dr.mech.ht dr.mech.phase new)
  exact h.withMech (moveHead_mech (dr := dr.withPhase new) hP h.image hphase hlow hhigh)
    (h.timer.congr hmotor harmed hperiod hzone) himg hpow hctl hcpu

/-- R189: `set_motor_zone` of a powered drive. -/
theorem Drive.Sound.setMotorZone {P : Params} {dr : Drive} (h : dr.Sound P)
    (hon : dr.powered = true) (m : Bool) (z : Bits2) : (dr.setMotorZone P m z).Sound P := by
  unfold Drive.setMotorZone
  split
  · exact h
  · split
    · exact h.withMech (h.mech.congr rfl rfl rfl rfl rfl rfl rfl)
        ⟨by simp [hon], ⟨z, rfl⟩, fun _ => rfl, fun hp => by simp [hon] at hp⟩ rfl rfl rfl rfl
    · exact h.withMech (h.mech.congr rfl rfl rfl rfl rfl rfl rfl)
        (h.timer.stopped rfl rfl rfl) rfl rfl rfl rfl

/-- R186: `MECH.CTRL` of a powered drive. -/
theorem Drive.Sound.control {P : Params} (hP : P.wf = true) {dr : Drive} (h : dr.Sound P)
    (hon : dr.powered = true) (c : Byte) : (dr.control P c).Sound P := by
  have hstepOn : (dr.step P (ctrlStep P c)).powered = true :=
    (congrArg DriveTraits.powered (Drive.step_traits ..)).trans hon
  exact (h.step hP _).setMotorZone hstepOn _ _

/-- R183: `advance`. -/
theorem Drive.Sound.advance {P : Params} {dr : Drive} (hP : P.wf = true) (h : dr.Sound P) :
    (dr.advance P).Sound P := by
  obtain ⟨hbuf, hcursor, hlow, hhigh, hsector, hffcount, hsync⟩ := h.mech
  unfold Drive.advance
  split
  case isTrue hpos =>
    exact h.withMech ⟨hbuf, hpos, hlow, hhigh, hsector, hffcount, hsync⟩
      (h.timer.congr rfl rfl rfl rfl) rfl rfl rfl rfl
  case isFalse =>
    split
    case _ hnone =>
      exact h.withMech ⟨hbuf, Nat.zero_le _, hlow, hhigh, hsector, hffcount, hsync⟩
        (h.timer.congr rfl rfl rfl rfl) rfl rfl rfl rfl
    case _ im him =>
      refine Drive.Sound.regen hP (h.withMech
        ⟨hbuf, Nat.zero_le _, hlow, hhigh, ?_, hffcount, hsync⟩
        (h.timer.congr rfl rfl rfl rfl) rfl rfl rfl rfl)
      intro im' him'
      obtain rfl : im = im' := Option.some.inj (him.symm.trans him')
      exact Nat.mod_lt _ (Nat.zero_lt_of_lt (hsector im him))

/-- R184: `detect_sync`. -/
theorem Drive.Sound.detectSync {P : Params} {dr : Drive} (h : dr.Sound P) :
    dr.detectSync.Sound P := by
  obtain ⟨hbuf, hcursor, hlow, hhigh, hsector, hffcount, hsync⟩ := h.mech
  have hff : nextFf dr.mech.ffcount dr.headByte ≤ 5 := by
    unfold nextFf
    split <;> omega
  exact h.withMech ⟨hbuf, hcursor, hlow, hhigh, hsector, hff, rfl⟩
    (h.timer.congr rfl rfl rfl rfl) rfl rfl rfl rfl

/-- A head on track 1 or beyond, inside the tracks of the drive, the sector index at 0. -/
theorem sector_zero_lt_spt {P : Params} (hP : P.wf = true) {im : Image} (him : im.Sound P)
    {ht : Nat} (hlow : 2 ≤ ht) (hhigh : ht ≤ 2 * im.maxTrack) : 0 < sptOf P im.format (ht / 2) :=
  spt_pos hP _ (by omega) (by rw [← him.maxTrack]; omega)

/-- R301: `mech_reset`. -/
theorem Drive.Sound.resetMech {P : Params} (hP : P.wf = true) {dr : Drive} (h : dr.Sound P) :
    (dr.resetMech P).Sound P := by
  have htracks : 1 ≤ dr.maxTrack P := maxTrack_eq h.image hP
  refine Drive.Sound.regen hP (h.withMech ⟨h.mech.bufferLength, Nat.zero_le _, le_rfl, ?_, ?_,
    Nat.zero_le _, rfl⟩ (h.timer.stopped rfl rfl rfl) rfl rfl rfl rfl)
  · show 2 ≤ 2 * dr.maxTrack P
    omega
  · intro im him
    have hmax : dr.maxTrack P = im.maxTrack := by
      unfold Drive.maxTrack
      rw [show dr.img = some im from him]
    exact sector_zero_lt_spt hP (h.image im him) le_rfl (show 2 ≤ 2 * im.maxTrack by omega)

/-- R192: `SYS.MOUNT` of a sound image. -/
theorem Drive.Sound.mount {P : Params} (hP : P.wf = true) {dr : Drive} (h : dr.Sound P) {im : Image}
    (him : im.Sound P) (wp : Bool) : (dr.mount P im wp).Sound P := by
  have htracks : 1 ≤ im.maxTrack := him.maxTrack ▸ maxTrack_pos hP _
  have hlow : 2 ≤ min dr.mech.ht (2 * im.maxTrack) := by
    have := h.mech.headLow
    omega
  refine Drive.Sound.regen hP
    { mech := ⟨h.mech.bufferLength, Nat.zero_le _, hlow, min_le_right _ _, ?_, Nat.zero_le _, rfl⟩
      image := ?_
      timer := h.timer.congr rfl rfl rfl rfl
      irqCurrent := h.irqCurrent
      cpuIrq := h.cpuIrq
      off := h.off
      retry := h.retry
      air := h.air
      ackOff := h.ackOff }
  · intro im' him'
    obtain rfl := Option.some.inj him'
    exact sector_zero_lt_spt hP him hlow (min_le_right _ _)
  · intro im' him'
    exact Option.some.inj him' ▸ him

/-- R193: with its retry flags cleared, a controller keeps its outputs. -/
theorem clearRetry_sameOutputs {P : Params} {k : Controller} (hcurrent : k.IrqCurrent P)
    (hair : k.AirClean) : k.clearRetry.IrqCurrent P ∧ k.clearRetry.request = k.request ∧
      k.clearRetry.UpdateReady ∧ (k.AckIdle → k.clearRetry.AckIdle) := by
  cases k with
  | via b dd => exact ⟨hcurrent, rfl, ⟨⟨nofun, nofun⟩, trivial⟩, id⟩
  | tpi t => exact ⟨hcurrent, rfl, ⟨nofun, hair⟩, id⟩

/-- R193: `SYS.UNMOUNT`. -/
theorem Drive.Sound.unmount {P : Params} (hP : P.wf = true) {dr : Drive} (h : dr.Sound P) :
    (dr.unmount P).Sound P := by
  have htracks : 1 ≤ P.noimgMaxTrack := maxTrack_eq (dr := { dr with img := none }) nofun hP
  have hlow : 2 ≤ min dr.mech.ht (2 * P.noimgMaxTrack) := by
    have := h.mech.headLow
    omega
  obtain ⟨hcurrent, hrequest, hready, hack⟩ := clearRetry_sameOutputs h.irqCurrent h.air
  exact {
    mech := ⟨h.mech.bufferLength, h.mech.cursor, hlow, min_le_right _ _, nofun, h.mech.ffcount,
      h.mech.sync⟩
    image := nofun
    timer := h.timer.stopped rfl rfl rfl
    irqCurrent := hcurrent
    cpuIrq := h.cpuIrq.trans hrequest.symm
    off := h.off
    retry := hready.waiting
    air := hready.air
    ackOff := fun hp => hack (h.ackOff hp) }

/-- R302: a drive that is off, switched on. -/
theorem Drive.Sound.powerOn {P : Params} {dr : Drive} (h : dr.Sound P) (hoff : dr.powered = false) :
    Drive.Sound P { dr with powered := true } where
  mech := h.mech.congr rfl rfl rfl rfl rfl rfl rfl
  image := h.image
  timer := h.timer.stopped (h.timer.off hoff) (by simp [h.timer.armed, hoff]) rfl
  irqCurrent := h.irqCurrent
  cpuIrq := h.cpuIrq
  off := nofun
  retry := h.retry
  air := h.air
  ackOff := nofun

/-- R303: the chips reset, the mechanism stopped, the power off. -/
theorem Drive.Sound.powerOff {P : Params} {dr : Drive} (h : dr.Sound P)
    (hidle : dr.cpuIrq = false) (hack : dr.ctl.AckIdle) : dr.powerOff.Sound P where
  mech := ⟨h.mech.bufferLength, h.mech.cursor, h.mech.headLow, h.mech.headHigh, h.mech.sector,
    Nat.zero_le _, rfl⟩
  image := h.image
  timer := h.timer.stopped rfl rfl rfl
  irqCurrent := h.irqCurrent
  cpuIrq := h.cpuIrq
  off := fun _ => hidle
  retry := h.retry
  air := h.air
  ackOff := fun _ => hack

/-- R279: delivering waiting requests changes no output. -/
theorem deliver_sameOutputs {P : Params} {k : Controller} (hcurrent : k.IrqCurrent P)
    (hready : k.UpdateReady) : k.deliver.IrqCurrent P ∧ k.deliver.request = k.request ∧
      k.deliver.UpdateReady := by
  obtain ⟨hwait, hair⟩ := hready
  cases k with
  | via b dd =>
    obtain ⟨hb, hdd⟩ := hwait
    exact ⟨hcurrent, rfl,
      ⟨⟨fun h => hb (Bool.and_elim_left h), fun h => hdd (Bool.and_elim_left h)⟩, trivial⟩⟩
  | tpi t => exact ⟨hcurrent, rfl, ⟨nofun, hair⟩⟩

/-- R279: `IRQ.RETRY` at a powered drive. -/
theorem Drive.Sound.deliver {P : Params} {dr : Drive} (h : dr.Sound P) (hon : dr.powered = true) :
    Drive.Sound P { dr with ctl := dr.ctl.deliver } := by
  obtain ⟨hcurrent, hrequest, hready⟩ := deliver_sameOutputs h.irqCurrent h.updateReady
  exact h.withChips hcurrent hready (h.cpuIrq.trans hrequest.symm) (fun hp => by simp [hon] at hp)

end Sys2Proof.Machine
end

section
/-! The invariant of the block (`State.Sound`) in three parts, and what each shared operation keeps
of them: the drives and the bus (`State.BodySound`), the retry timer (`State.RetrySettled`, R50),
the latches of the drives that are off (`State.OffReleases`, R160). An operation that recomputes the
retry timer at its end, or that switches a drive off, keeps only the first part on its way. -/

namespace Sys2Proof.Machine

set_option Elab.async false

/-! ### One drive changed -/

/-- What stands in a list in which one element was changed. -/
theorem getElem?_modify_some {α : Type} {l : List α} {f : α → α} {d e : Nat} {x : α}
    (h : (l.modify d f)[e]? = some x) :
    (d ≠ e ∧ l[e]? = some x) ∨ (d = e ∧ ∃ y, l[d]? = some y ∧ x = f y) := by
  rw [List.getElem?_modify] at h
  cases hy : l[e]? with
  | none => simp [hy] at h
  | some y =>
    by_cases hde : d = e
    · subst hde
      have hx : f y = x := by simpa [hy] using h
      exact .inr ⟨rfl, y, hy, hx.symm⟩
    · have hx : y = x := by simpa [hy, hde] using h
      exact .inl ⟨hde, congrArg some hx⟩

theorem map_modify_at {α β : Type} {l : List α} {d : Nat} {x : α} {f : α → α} {g : α → β}
    (h : l[d]? = some x) (hfg : g (f x) = g x) : (l.modify d f).map g = l.map g := by
  apply List.ext_getElem?
  intro n
  simp only [List.getElem?_map, List.getElem?_modify]
  by_cases hn : d = n
  · subst hn
    simp [h, hfg]
  · simp [hn]

/-- States with the same traits hold drives of the same traits. -/
theorem drive_of_traits_eq {s t : State} (h : t.traits = s.traits) {d : Nat} {dr : Drive}
    (hdr : s.drives[d]? = some dr) : ∃ dr', t.drives[d]? = some dr' ∧ dr'.traits = dr.traits := by
  have hget : t.traits.drives[d]? = some dr.traits := h ▸ traits_drives_of_some hdr
  simpa [State.traits] using hget

/-! ### The parts of the invariant -/

/-- The invariant without the retry timer and the latches of drives that are off. -/
structure State.BodySound (s : State) : Prop where
  params : s.params.wf = true
  shape : s.ShapeOk
  bus : BusConsistent s.bus
  drives : ∀ dr ∈ s.drives, dr.Sound s.params

/-- R50: the retry timer is armed exactly when a request of a powered drive waits. -/
def State.RetrySettled (s : State) : Prop :=
  s.retryArmed = s.drives.any fun dr => dr.powered && dr.ctl.anyRetry

/-- R160: a participant whose drive is not powered keeps its latches released. -/
def State.OffReleases (s : State) : Prop :=
  ∀ d dr, s.drives[d]? = some dr → dr.powered = false →
    s.bus.latches[d + 1]? = some Lines.released

theorem State.Sound.body {s : State} (h : s.Sound) : s.BodySound :=
  ⟨h.params, h.shape, h.bus, h.drives⟩

theorem State.BodySound.sound {s : State} (h : s.BodySound) (hretry : s.RetrySettled)
    (hoff : s.OffReleases) : s.Sound :=
  ⟨h.params, h.shape, h.bus, h.drives, hretry, hoff⟩

theorem State.BodySound.drive {s : State} (h : s.BodySound) {d : Nat} {dr : Drive}
    (hdr : s.drives[d]? = some dr) : dr.Sound s.params :=
  h.drives dr (List.mem_of_getElem? hdr)

theorem State.Sound.drive {s : State} (h : s.Sound) {d : Nat} {dr : Drive}
    (hdr : s.drives[d]? = some dr) : dr.Sound s.params :=
  h.body.drive hdr

/-- The invariant reads the parameters, the bus, the drives and the retry timer. -/
theorem State.Sound.congr {s t : State} (h : s.Sound) (hparams : t.params = s.params)
    (hbus : t.bus = s.bus) (hdrives : t.drives = s.drives) (hretry : t.retryArmed = s.retryArmed) :
    t.Sound := by
  obtain ⟨h1, ⟨h2, h3, h4⟩, h5, h6, h7, h8⟩ := h
  refine ⟨?_, ⟨?_, ?_, ?_⟩, ?_, ?_, ?_, ?_⟩ <;> simp only [hparams, hbus, hdrives, hretry] <;>
    assumption

theorem State.Sound.drawn {s : State} (h : s.Sound) : s.drawn.Sound := h.congr rfl rfl rfl rfl

theorem State.Sound.withRequests {s : State} (h : s.Sound) (rest : List Request) :
    (s.withRequests rest).Sound := h.congr rfl rfl rfl rfl

theorem State.BodySound.of_modify {s t : State} (h : s.BodySound) {d : Nat} {f : Drive → Drive}
    (hf : ∀ dr, s.drives[d]? = some dr → (f dr).Sound s.params)
    (hdrives : t.drives = s.drives.modify d f) (hparams : t.params = s.params)
    (hbus : t.bus = s.bus) : t.BodySound where
  params := hparams ▸ h.params
  shape := by simpa [State.ShapeOk, hdrives, hbus] using h.shape
  bus := hbus ▸ h.bus
  drives := by
    intro dr hdr
    rw [hdrives] at hdr
    rw [hparams]
    obtain ⟨e, he⟩ := List.mem_iff_getElem?.1 hdr
    rcases getElem?_modify_some he with ⟨-, hsame⟩ | ⟨-, x, hx, rfl⟩
    · exact h.drive hsame
    · exact hf x hx

theorem State.RetrySettled.of_modify {s t : State} (h : s.RetrySettled) {d : Nat} {dr : Drive}
    {f : Drive → Drive} (hdr : s.drives[d]? = some dr)
    (hf : ((f dr).powered && (f dr).ctl.anyRetry) = (dr.powered && dr.ctl.anyRetry))
    (hdrives : t.drives = s.drives.modify d f) (hretry : t.retryArmed = s.retryArmed) :
    t.RetrySettled := by
  have hany := congrArg (List.any · id)
    (map_modify_at (g := fun dr => dr.powered && dr.ctl.anyRetry) hdr hf)
  simp only [List.any_map, Function.id_comp] at hany
  unfold State.RetrySettled
  rw [hretry, hdrives, hany]
  exact h

theorem State.OffReleases.of_modify {s t : State} (h : s.OffReleases) {d : Nat} {dr : Drive}
    {f : Drive → Drive} (hdr : s.drives[d]? = some dr)
    (hf : (f dr).powered = false → dr.powered = false)
    (hdrives : t.drives = s.drives.modify d f) (hbus : t.bus = s.bus) : t.OffReleases := by
  intro e dr' he hoff
  rw [hdrives] at he
  rw [hbus]
  rcases getElem?_modify_some he with ⟨-, hsame⟩ | ⟨rfl, x, hx, rfl⟩
  · exact h e dr' hsame hoff
  · obtain rfl := Option.some.inj (hdr.symm.trans hx)
    exact h d dr hdr (hf hoff)

theorem State.OffReleases.of_traits {s t : State} (h : s.OffReleases)
    (htraits : t.traits = s.traits)
    (hlatches : ∀ d dr, s.drives[d]? = some dr → dr.powered = false →
      t.bus.latches[d + 1]? = s.bus.latches[d + 1]?) : t.OffReleases := by
  intro d dr hdr hoff
  obtain ⟨dr', hdr', heq⟩ := drive_of_traits_eq htraits.symm hdr
  have hoff' : dr'.powered = false := (congrArg DriveTraits.powered heq).trans hoff
  rw [hlatches d dr' hdr' hoff', h d dr' hdr' hoff']

/-- A change of one drive that keeps it sound and does not switch it off, with the retry timer
settled, keeps the invariant. -/
theorem State.Sound.of_modify {s t : State} (h : s.Sound) {d : Nat} {dr : Drive} {f : Drive → Drive}
    (hdr : s.drives[d]? = some dr) (hf : (f dr).Sound s.params)
    (hpow : (f dr).powered = false → dr.powered = false)
    (hdrives : t.drives = s.drives.modify d f) (hparams : t.params = s.params)
    (hbus : t.bus = s.bus) (hretry : t.RetrySettled) : t.Sound :=
  (h.body.of_modify (fun _ hx => Option.some.inj (hdr.symm.trans hx) ▸ hf) hdrives hparams
    hbus).sound hretry (State.OffReleases.of_modify h.offReleases hdr hpow hdrives hbus)

/-! ### Changes of one drive -/

/-- An operation of the mechanism leaves the chips, and so the retry timer, alone. -/
theorem State.Sound.mapDrive {s : State} (h : s.Sound) {d : Nat} {dr : Drive} {f : Drive → Drive}
    (hdr : s.drives[d]? = some dr) (hf : (f dr).Sound s.params)
    (hpow : (f dr).powered = dr.powered) (hctl : (f dr).ctl = dr.ctl) : (s.mapDrive d f).Sound :=
  h.of_modify hdr hf (fun hoff => hpow ▸ hoff) rfl rfl rfl
    (State.RetrySettled.of_modify h.retry hdr (by rw [hpow, hctl]) rfl rfl)

/-- A register write that no interrupt output depends on. -/
theorem State.Sound.mapCtl {s : State} (h : s.Sound) {d : Nat} {dr : Drive}
    {f : Controller → Controller} (hdr : s.drives[d]? = some dr) (hon : dr.powered = true)
    (hf : dr.ctl.SameIrq s.params (f dr.ctl)) : (s.mapCtl d f).Sound :=
  h.of_modify hdr ((h.drive hdr).written hon hf) id rfl rfl rfl
    (State.RetrySettled.of_modify h.retry hdr (congrArg (dr.powered && ·) hf.anyRetry) rfl rfl)

/-- R277: `IRQ.UPDATE` of a drive settles the retry timer. -/
theorem irqUpdate_retrySettled {s : State} {d : Nat} (hd : d < s.drives.length) :
    (s.irqUpdate d).RetrySettled := by
  rw [irqUpdate_of_some (List.getElem?_eq_getElem hd)]
  rfl

theorem lt_of_drive {s : State} {d : Nat} {dr : Drive} (hdr : s.drives[d]? = some dr) :
    d < s.drives.length :=
  (List.getElem?_eq_some_iff.1 hdr).1

/-- A register change followed by `IRQ.UPDATE`. -/
theorem State.Sound.mapCtl_irqUpdate {s : State} (h : s.Sound) {d : Nat} {dr : Drive}
    {f : Controller → Controller} (hdr : s.drives[d]? = some dr) (hon : dr.powered = true)
    (hf : (f dr.ctl).UpdateReady) : ((s.mapCtl d f).irqUpdate d).Sound :=
  h.of_modify (f := fun dr => Drive.updateIrq s.params { dr with ctl := f dr.ctl }) hdr
    ((h.drive hdr).updated hon hf) id (by simp [List.modify_modify_eq, Function.comp_def]) (by simp)
    (by simp) (irqUpdate_retrySettled (by simpa using lt_of_drive hdr))

theorem State.Sound.irqUpdate {s : State} (h : s.Sound) {d : Nat} {dr : Drive}
    (hdr : s.drives[d]? = some dr) (hon : dr.powered = true) : (s.irqUpdate d).Sound :=
  h.of_modify hdr ((h.drive hdr).updated hon (h.drive hdr).updateReady) id (by simp) (by simp)
    (by simp) (irqUpdate_retrySettled (lt_of_drive hdr))

/-- A drive after a change of its controller. -/
theorem mapCtl_drive {s : State} {d : Nat} {dr : Drive} (hdr : s.drives[d]? = some dr)
    (f : Controller → Controller) :
    (s.mapCtl d f).drives[d]? = some { dr with ctl := f dr.ctl } := by
  simp [hdr]

theorem State.Sound.mapTpi_irqUpdate {s : State} (h : s.Sound) {d : Nat} {dr : Drive}
    (hdr : s.drives[d]? = some dr) (hon : dr.powered = true) {f : TpiChip → TpiChip}
    (hf : ∀ x, (f x).chipIrq = x.chipIrq ∧ (f x).irqRetry = x.irqRetry)
    (hair : ∀ x, x.air.extractLsb' 5 3 = 0 → (f x).air.extractLsb' 5 3 = 0) :
    ((s.mapTpi d f).irqUpdate d).Sound :=
  h.mapCtl_irqUpdate hdr hon (mapTpi_updateReady (h.drive hdr).updateReady hf hair)

theorem State.Sound.mapTpi {s : State} (h : s.Sound) {d : Nat} {dr : Drive}
    (hdr : s.drives[d]? = some dr) (hon : dr.powered = true) {f : TpiChip → TpiChip}
    (hf : ∀ x, (f x).cr = x.cr ∧ (f x).air = x.air ∧ (f x).chipIrq = x.chipIrq ∧
      (f x).irqRetry = x.irqRetry) : (s.mapTpi d f).Sound :=
  h.mapCtl hdr hon (mapTpi_sameIrq hf _)

theorem State.Sound.mapVia {s : State} (h : s.Sound) {d : Nat} {dr : Drive}
    (hdr : s.drives[d]? = some dr) (hon : dr.powered = true) (c : ViaId) {f : ViaChip → ViaChip}
    (hf : ∀ x, viaIrqFn s.params (f x) = viaIrqFn s.params x ∧ (f x).chipIrq = x.chipIrq ∧
      (f x).irqRetry = x.irqRetry) : (s.mapCtl d (Controller.mapVia c f)).Sound :=
  h.mapCtl hdr hon (mapVia_sameIrq hf c _)

theorem State.Sound.mapVia_irqUpdate {s : State} (h : s.Sound) {d : Nat} {dr : Drive}
    (hdr : s.drives[d]? = some dr) (hon : dr.powered = true) (c : ViaId) {f : ViaChip → ViaChip}
    (hf : ∀ x, (f x).chipIrq = x.chipIrq ∧ (f x).irqRetry = x.irqRetry) :
    ((s.mapCtl d (Controller.mapVia c f)).irqUpdate d).Sound :=
  h.mapCtl_irqUpdate hdr hon (mapVia_updateReady (h.drive hdr).updateReady c hf)

theorem State.Sound.setCa1 {s : State} (h : s.Sound) {d : Nat} {dr : Drive}
    (hdr : s.drives[d]? = some dr) (hon : dr.powered = true) (c : ViaId) (v : Bool) :
    (s.setCa1 d c v).Sound :=
  h.mapVia_irqUpdate hdr hon c fun _ => ⟨rfl, rfl⟩

theorem State.Sound.mapVia_setCa1 {s : State} (h : s.Sound) {d : Nat} {dr : Drive}
    (hdr : s.drives[d]? = some dr) (hon : dr.powered = true) (c : ViaId) {f : ViaChip → ViaChip}
    (hf : ∀ x, viaIrqFn s.params (f x) = viaIrqFn s.params x ∧ (f x).chipIrq = x.chipIrq ∧
      (f x).irqRetry = x.irqRetry) (v : Bool) :
    ((s.mapCtl d (Controller.mapVia c f)).setCa1 d c v).Sound :=
  (h.mapVia hdr hon c hf).setCa1 (mapCtl_drive hdr _) hon c v

/-! ### The bus -/

theorem Drive.Sound.notified {P : Params} {dr : Drive} (h : dr.Sound P) (l : Line) (v : Bool) :
    (Drive.notified P l v dr).Sound P := by
  unfold Drive.notified
  split
  · split
    case isTrue hedge =>
      exact h.updated hedge.1 (mapVia_updateReady h.updateReady _ fun _ => ⟨rfl, rfl⟩)
    case isFalse => exact h
  · exact h

theorem State.BodySound.notify {s : State} (h : s.BodySound) (q : Nat) (l : Line) (v : Bool) :
    (s.notify q l v).BodySound := by
  cases q with
  | zero => exact ⟨h.params, h.shape, h.bus, h.drives⟩
  | succ d =>
    exact h.of_modify (d := d) (fun _ hdr => (h.drive hdr).notified l v) (by simp) (by simp)
      (by simp)

theorem State.RetrySettled.notify {s : State} (h : s.RetrySettled) (q : Nat) (l : Line) (v : Bool) :
    (s.notify q l v).RetrySettled := by
  unfold State.notify
  split
  · exact h
  · split
    · exact h
    · rename_i dr hdr
      have hlen : q - 1 < s.drives.length := lt_of_drive hdr
      split
      · split
        · split
          · exact irqUpdate_retrySettled (by simpa using hlen)
          · exact h
        · exact h
      · exact h

theorem State.BodySound.notifyAll {s : State} (h : s.BodySound) (l : Line) (v : Bool) :
    (s.notifyAll l v).BodySound :=
  List.foldlRecOn _ _ h fun _ h q _ => h.notify q l v

theorem State.RetrySettled.notifyAll {s : State} (h : s.RetrySettled) (l : Line) (v : Bool) :
    (s.notifyAll l v).RetrySettled :=
  List.foldlRecOn _ _ h fun _ h q _ => h.notify q l v

theorem State.BodySound.busSet {s : State} (h : s.BodySound) (p : Nat) (l : Line) (v : Bool) :
    (s.busSet p l v).BodySound := by
  have hbus := busSet_consistent h.bus p l v
  have hshape : (s.setLatch p l v).ShapeOk := by simpa [State.ShapeOk] using h.shape
  rcases busSet_cases s p l v with ⟨-, heq⟩ | ⟨-, heq⟩
  · rw [heq] at hbus ⊢
    exact ⟨h.params, hshape, hbus, h.drives⟩
  · rw [heq] at hbus ⊢
    rw [notifyAll_bus] at hbus
    have hlines : State.BodySound
        ((s.setLatch p l v).setLine l ((s.setLatch p l v).bus.wiredAnd l)) :=
      ⟨h.params, hshape, hbus, h.drives⟩
    exact hlines.notifyAll _ _

theorem State.RetrySettled.busSet {s : State} (h : s.RetrySettled) (p : Nat) (l : Line) (v : Bool) :
    (s.busSet p l v).RetrySettled := by
  rcases busSet_cases s p l v with ⟨-, heq⟩ | ⟨-, heq⟩
  · rw [heq]
    exact h
  · rw [heq]
    have hlines : State.RetrySettled
        ((s.setLatch p l v).setLine l ((s.setLatch p l v).bus.wiredAnd l)) := h
    exact hlines.notifyAll _ _

/-- Participant `p` can act: it is the host, or its drive is powered (R160, R292). -/
def State.Acts (s : State) (p : Nat) : Prop :=
  p = 0 ∨ ∃ dr, s.drives[p - 1]? = some dr ∧ dr.powered = true

theorem acts_of_traits_eq {s t : State} (h : t.traits = s.traits) {p : Nat} (hp : s.Acts p) :
    t.Acts p := by
  refine hp.imp_right ?_
  rintro ⟨dr, hdr, hon⟩
  obtain ⟨dr', hdr', heq⟩ := drive_of_traits_eq h hdr
  exact ⟨dr', hdr', (congrArg DriveTraits.powered heq).trans hon⟩

/-- R161: a participant that can act sets a line. -/
theorem State.Sound.busSet {s : State} (h : s.Sound) {p : Nat} (hp : s.Acts p) (l : Line)
    (v : Bool) : (s.busSet p l v).Sound := by
  refine (h.body.busSet p l v).sound (State.RetrySettled.busSet h.retry p l v) ?_
  refine State.OffReleases.of_traits h.offReleases (busSet_traits ..) fun d dr hdr hoff => ?_
  have hne : p ≠ d + 1 := by
    rintro rfl
    rcases hp with h0 | ⟨x, hx, hon⟩
    · omega
    · obtain rfl := Option.some.inj (hdr.symm.trans hx)
      simp [hoff] at hon
  simp [hne]

theorem acts_of_on {s : State} {d : Nat} {dr : Drive} (hdr : s.drives[d]? = some dr)
    (hon : dr.powered = true) : s.Acts (1 + d) :=
  .inr ⟨dr, by simpa using hdr, hon⟩

theorem State.Sound.applyBusOutputs {s : State} (h : s.Sound) {d : Nat} {dr : Drive}
    (hdr : s.drives[d]? = some dr) (hon : dr.powered = true) : (s.applyBusOutputs d).Sound := by
  have hacts := acts_of_on hdr hon
  unfold State.applyBusOutputs
  split
  · exact h
  · split
    · exact h
    · exact (h.busSet hacts _ _).busSet (acts_of_traits_eq (busSet_traits ..) hacts) _ _

/-! ### The mechanism -/

@[simp] theorem Drive.step_ctl (P : Params) (dr : Drive) (new : Bits2) :
    (dr.step P new).ctl = dr.ctl := by
  obtain ⟨-, -, -, -, hctl, -⟩ := moveHead_rest P (dr.withPhase new)
    (steppedHt (dr.maxTrack P) dr.mech.ht dr.mech.phase new)
  exact hctl

@[simp] theorem Drive.setMotorZone_ctl (P : Params) (dr : Drive) (m : Bool) (z : Bits2) :
    (dr.setMotorZone P m z).ctl = dr.ctl := by
  unfold Drive.setMotorZone
  split
  · rfl
  · split <;> rfl

@[simp] theorem Drive.control_ctl (P : Params) (dr : Drive) (c : Byte) :
    (dr.control P c).ctl = dr.ctl := by
  simp [Drive.control]

@[simp] theorem Drive.advance_ctl (P : Params) (dr : Drive) : (dr.advance P).ctl = dr.ctl := by
  unfold Drive.advance
  split
  · rfl
  · split <;> simp

theorem State.Sound.mechStep {s : State} (h : s.Sound) {d : Nat} {dr : Drive}
    (hdr : s.drives[d]? = some dr) (new : Bits2) :
    (s.mapDrive d fun dr => dr.step s.params new).Sound := by
  have hkeep : (dr.step s.params new).traits = dr.traits := Drive.step_traits ..
  exact h.mapDrive hdr ((h.drive hdr).step h.params new) (congrArg DriveTraits.powered hkeep)
    (by simp)

theorem State.Sound.mechCtrl {s : State} (h : s.Sound) {d : Nat} {dr : Drive}
    (hdr : s.drives[d]? = some dr) (hon : dr.powered = true) (c : Byte) :
    (s.mechCtrl d c).Sound := by
  have hkeep : (dr.control s.params c).traits = dr.traits := Drive.control_traits ..
  exact h.mapDrive hdr ((h.drive hdr).control h.params hon c) (congrArg DriveTraits.powered hkeep)
    (by simp)

theorem State.Sound.applyControl {s : State} (h : s.Sound) {d : Nat} {dr : Drive}
    (hdr : s.drives[d]? = some dr) (hon : dr.powered = true) : (s.applyControl d).Sound := by
  unfold State.applyControl
  split
  · exact h
  · split
    · exact h
    · exact h.mechCtrl hdr hon _

theorem State.Sound.applyPortB {s : State} (h : s.Sound) {d : Nat} {dr : Drive}
    (hdr : s.drives[d]? = some dr) (hon : dr.powered = true) (c : ViaId) :
    (applyPortB s d c).Sound := by
  cases c with
  | viab => exact h.applyBusOutputs hdr hon
  | viad => exact h.applyControl hdr hon

theorem State.Sound.ready {s : State} (h : s.Sound) {d : Nat} {dr : Drive}
    (hdr : s.drives[d]? = some dr) (hon : dr.powered = true) : (s.ready d).Sound := by
  have hemit : (s.emit (.readyPulse d)).Sound := h.congr rfl rfl rfl rfl
  unfold State.ready
  split
  · exact hemit
  · split
    · exact hemit.setCa1 hdr hon _ _
    · exact hemit

/-- R182: a tick of a drive whose timer is armed. -/
theorem State.Sound.tick {s : State} (h : s.Sound) {d : Nat} {dr : Drive}
    (hdr : s.drives[d]? = some dr) (harmed : dr.mech.timerArmed = true) : (s.tick d).Sound := by
  have hon : dr.powered = true :=
    Bool.and_elim_left ((h.drive hdr).timer.armed.symm.trans harmed)
  have hkeep : (dr.advance s.params).powered = dr.powered :=
    congrArg DriveTraits.powered (Drive.advance_traits ..)
  have hspun : (s.mapDrive d fun dr => (dr.advance s.params).detectSync).Sound :=
    h.mapDrive (f := fun dr => (dr.advance s.params).detectSync) hdr
      ((h.drive hdr).advance h.params).detectSync hkeep (by simp)
  exact hspun.ready (dr := (dr.advance s.params).detectSync) (by simp [hdr]) (hkeep.trans hon)

end Sys2Proof.Machine
end

section
/-! Reset, power, mount, unmount and the retry timer, then every operation and every step keep the
invariant of the block; the machine right after reset meets it. -/

namespace Sys2Proof.Machine

set_option Elab.async false

/-! ### Reset (R300, R301) -/

/-- What `SYS.RESET` does to a drive. -/
def Drive.reset (P : Params) (dr : Drive) : Drive :=
  Drive.resetMech P (Drive.updateIrq P { dr with
    ctl := (dr.ctl.mapTpi fun t => { t with hsDav := true }).clear })

theorem resetDrive_drives (s : State) (d : Nat) :
    (s.resetDrive d).drives = s.drives.modify d (Drive.reset s.params) := by
  simp [State.resetDrive, State.chipReset, List.modify_modify_eq]
  rfl

@[simp] theorem resetDrive_bus (s : State) (d : Nat) : (s.resetDrive d).bus = s.bus := by
  simp [State.resetDrive, State.chipReset]

theorem foldl_resetDrive_drives (n : Nat) (s : State) (d : Nat) :
    ((List.range n).foldl State.resetDrive s).drives[d]? =
      if d < n then s.drives[d]?.map (Drive.reset s.params) else s.drives[d]? := by
  induction n with
  | zero => simp
  | succ n ih =>
    have hparams : ((List.range n).foldl State.resetDrive s).params = s.params :=
      congrArg Traits.params (foldl_keeps_traits resetDrive_traits _ s)
    rw [List.range_succ, List.foldl_append, List.foldl_cons, List.foldl_nil, resetDrive_drives,
      List.getElem?_modify, ih, hparams]
    by_cases hd : n = d
    · simp [hd]
    · have hlt : d < n + 1 ↔ d < n := by omega
      simp [hd, hlt]

/-- R300: every drive is reset. -/
theorem foldl_resetDrive_all (s : State) :
    ((List.range s.drives.length).foldl State.resetDrive s).drives =
      s.drives.map (Drive.reset s.params) := by
  apply List.ext_getElem?
  intro d
  rw [foldl_resetDrive_drives, List.getElem?_map]
  by_cases hd : d < s.drives.length
  · simp [hd]
  · simp [hd]

theorem Drive.Sound.reset {P : Params} (hP : P.wf = true) {dr : Drive} (h : dr.Sound P) :
    (dr.reset P).Sound P := by
  have hready : (dr.ctl.mapTpi fun t => { t with hsDav := true }).UpdateReady :=
    mapTpi_updateReady h.updateReady (fun _ => ⟨rfl, rfl⟩) fun _ => id
  exact (h.cleared hready).resetMech hP

theorem reset_request (P : Params) (dr : Drive) : (dr.reset P).ctl.request = false := by
  simp [Drive.reset, Drive.resetMech, clear_updateIrq_request]

/-- The bus and the pair as `SYS.RESET` leaves them (R300). -/
def State.withIdleBus (s : State) : State :=
  { s with
    bus := ⟨s.bus.latches.map fun _ => Lines.released, Lines.released⟩
    par := ⟨false, true, 0xFF⟩ }

theorem withIdleBus_consistent (s : State) : BusConsistent s.withIdleBus.bus := by
  intro l
  cases l <;> simp [State.withIdleBus, Bus.wiredAnd, Lines.get, Lines.released]

/-- Every drive reset, the bus idle. -/
def State.resetAll (s : State) : State :=
  (List.range s.drives.length).foldl State.resetDrive s.withIdleBus

theorem resetAll_drives (s : State) : s.resetAll.drives = s.drives.map (Drive.reset s.params) :=
  foldl_resetDrive_all s.withIdleBus

theorem resetAll_params (s : State) : s.resetAll.params = s.params :=
  congrArg Traits.params (foldl_keeps_traits resetDrive_traits _ s.withIdleBus)

theorem resetAll_bus (s : State) : s.resetAll.bus = s.withIdleBus.bus :=
  List.foldlRecOn _ _ (motive := fun t : State => t.bus = s.withIdleBus.bus) rfl
    fun t ht d _ => (resetDrive_bus t d).trans ht

theorem State.Sound.resetAll_drive {s : State} (h : s.Sound) :
    ∀ dr ∈ s.resetAll.drives, dr.Sound s.params ∧ dr.ctl.anyRetry = false := by
  rw [resetAll_drives, List.forall_mem_map]
  intro dr hdr
  have hsound := (h.drives dr hdr).reset h.params
  exact ⟨hsound, anyRetry_eq_false hsound.retry (reset_request _ _)⟩

/-- R300: `SYS.RESET`. -/
theorem sysReset_sound {s : State} (h : s.Sound) : Ensures (execSysReset s) State.Sound := by
  have hdrive := h.resetAll_drive
  have hsound : State.Sound { s.resetAll with retryArmed := false } := by
    refine ⟨?_, ?_, ?_, ?_, ?_, ?_⟩
    · exact resetAll_params s ▸ h.params
    · simpa [State.ShapeOk, resetAll_drives, resetAll_bus, State.withIdleBus] using h.shape
    · exact resetAll_bus s ▸ withIdleBus_consistent s
    · intro dr hdr
      exact resetAll_params s ▸ (hdrive dr hdr).1
    · symm
      simp only [List.any_eq_false, Bool.and_eq_true, not_and]
      intro dr hdr _
      simp [(hdrive dr hdr).2]
    · intro d dr hdr _
      obtain ⟨-, -, hlen⟩ := h.shape
      have hd : d < s.drives.length := by simpa [resetAll_drives] using lt_of_drive hdr
      simp [resetAll_bus, State.withIdleBus, hlen, hd]
  exact ensures_done (hsound.congr rfl rfl rfl rfl)

/-! ### Power (R302, R303) -/

/-- R302: `SYS.PWRON`. -/
theorem sysPwron_sound {s : State} (h : s.Sound) (d : Nat) :
    Ensures (execSysPwron d s) State.Sound := by
  refine ensures_onDrive fun dr hdr => ?_
  split
  · exact ensures_refused _ _
  · rename_i hoff
    have hdrive := (h.drive hdr).powerOn (by simpa using hoff)
    have hsound : State.Sound ((s.mapDrive d fun dr => { dr with powered := true }).chipReset d) :=
      h.of_modify
        (f := fun dr => Drive.updateIrq s.params { dr with powered := true, ctl := dr.ctl.clear })
        hdr (hdrive.cleared hdrive.updateReady) nofun
        (by simp [State.chipReset, List.modify_modify_eq, Function.comp_def])
        (by simp [State.chipReset]) (by simp [State.chipReset])
        (irqUpdate_retrySettled (by simpa using lt_of_drive hdr))
    exact ensures_done (hsound.congr rfl rfl rfl rfl)

/-- Drive `d` switched off, its latches not yet released (R303). -/
def State.switchOff (s : State) (d : Nat) : State := (s.chipReset d).mapDrive d Drive.powerOff

/-- The latches of participant `p` released, one after the other (R303). -/
def State.release (s : State) (p : Nat) : State :=
  ((s.busSet p .atn true).busSet p .clock true).busSet p .data true

theorem State.Sound.switchOff {s : State} (h : s.Sound) (d : Nat) : (s.switchOff d).BodySound := by
  refine h.body.of_modify (d := d)
    (f := fun dr => (Drive.updateIrq s.params { dr with ctl := dr.ctl.clear }).powerOff)
    (fun dr hdr => ?_)
    (by simp [State.switchOff, State.chipReset, List.modify_modify_eq, Function.comp_def])
    (by simp [State.switchOff, State.chipReset]) (by simp [State.switchOff, State.chipReset])
  exact ((h.drive hdr).cleared (h.drive hdr).updateReady).powerOff
    (clear_updateIrq_request ..) (clear_updateIrq_ackIdle ..)

theorem State.BodySound.release {s : State} (h : s.BodySound) (p : Nat) : (s.release p).BodySound :=
  ((h.busSet p _ _).busSet p _ _).busSet p _ _

theorem release_latches (s : State) (p : Nat) :
    (s.release p).bus.latches = s.bus.latches.modify p fun _ => Lines.released := by
  simp [State.release, List.modify_modify_eq]
  rfl

theorem switchOff_release_offReleases {s : State} (h : s.Sound) (d : Nat) :
    ((s.switchOff d).release (1 + d)).OffReleases := by
  intro e dr hdr hoff
  have htraits : ((s.switchOff d).release (1 + d)).traits =
      s.traits.mapDrive d (.setPowered false) := by
    simp [State.release, State.switchOff, mapDrive_traits Drive.powerOff_traits]
  have hget := traits_drives_of_some hdr
  have hbus : (s.switchOff d).bus = s.bus := by simp [State.switchOff, State.chipReset]
  rw [htraits] at hget
  rw [release_latches, hbus, Nat.add_comm 1 d]
  obtain ⟨-, -, hlen⟩ := h.shape
  rcases getElem?_modify_some hget with ⟨hne, hsame⟩ | ⟨rfl, y, hy, -⟩
  · obtain ⟨x, hx, hxt⟩ : ∃ x, s.drives[e]? = some x ∧ x.traits = dr.traits := by
      simpa [State.traits] using hsame
    have := h.offReleases e x hx ((congrArg DriveTraits.powered hxt).trans hoff)
    simp [hne, this]
  · obtain ⟨x, hx, -⟩ : ∃ x, s.drives[d]? = some x ∧ x.traits = y := by
      simpa [State.traits] using hy
    have hd : d + 1 < s.bus.latches.length := by
      have := lt_of_drive hx
      omega
    simp [hd]

/-- R303: `SYS.PWROFF`. -/
theorem sysPwroff_sound {s : State} (h : s.Sound) (d : Nat) :
    Ensures (execSysPwroff d s) State.Sound := by
  refine ensures_onPowered fun dr hdr hon => ensures_done ?_
  obtain ⟨hparams, hshape, hbus, hdrives⟩ := (h.switchOff d).release (1 + d)
  exact ⟨hparams, hshape, hbus, hdrives, rfl, switchOff_release_offReleases h d⟩

/-! ### Mount and unmount (R192, R193) -/

theorem sysMount_sound {s : State} (h : s.Sound) (d : Nat) (f : Format) (bytes : List Host.Cell)
    (len : Nat) (wp : Bool) : Ensures (execSysMount d f bytes len wp s) State.Sound := by
  refine ensures_onDrive fun dr hdr => ?_
  split
  · exact ensures_refused _ _
  · have hsound := h.mapDrive
      (f := fun dr => dr.mount s.params (mountImage s.params f bytes len) wp) hdr
      ((h.drive hdr).mount h.params (mountImage_sound ..) wp) (by simp [Drive.mount])
      (by simp [Drive.mount])
    exact ensures_done (hsound.congr rfl rfl rfl rfl)

theorem sysUnmount_sound {s : State} (h : s.Sound) (d : Nat) :
    Ensures (execSysUnmount d s) State.Sound := by
  refine ensures_onDrive fun dr hdr => ?_
  have hsound : State.Sound (s.mapDrive d fun dr => dr.unmount s.params).recountRetry :=
    h.of_modify hdr ((h.drive hdr).unmount h.params) id rfl rfl rfl rfl
  exact ensures_done (hsound.congr rfl rfl rfl rfl)

/-! ### The retry timer (R279) -/

theorem foldl_emit_eq {α : Type} (f : α → Event) (l : List α) (s : State) :
    l.foldl (fun s x => s.emit (f x)) s = { s with events := (l.map f).reverse ++ s.events } := by
  induction l generalizing s with
  | nil => rfl
  | cons x l ih =>
    rw [List.foldl_cons, ih]
    simp [State.emit]

/-- What a firing of the retry timer does to a drive. -/
theorem retryDrive_cases (s : State) (d : Nat) :
    s.retryDrive d = s ∨ ∃ dr es, s.drives[d]? = some dr ∧ dr.powered = true ∧
      s.retryDrive d = State.mapCtl { s with events := es } d Controller.deliver := by
  unfold State.retryDrive
  split
  · exact .inl rfl
  · rename_i dr hdr
    split
    · rename_i hon
      rw [foldl_emit_eq]
      exact .inr ⟨dr, _, hdr, hon, rfl⟩
    · exact .inl rfl

theorem State.BodySound.retryDrive {s : State} (h : s.BodySound) (hoff : s.OffReleases) (d : Nat) :
    (s.retryDrive d).BodySound ∧ (s.retryDrive d).OffReleases := by
  rcases retryDrive_cases s d with heq | ⟨dr, es, hdr, hon, heq⟩
  · rw [heq]
    exact ⟨h, hoff⟩
  · rw [heq]
    have hdeliver : ∀ x, s.drives[d]? = some x →
        Drive.Sound s.params { x with ctl := x.ctl.deliver } := by
      intro x hx
      obtain rfl := Option.some.inj (hdr.symm.trans hx)
      exact (h.drive hdr).deliver hon
    exact ⟨h.of_modify hdeliver rfl rfl rfl, hoff.of_modify hdr id rfl rfl⟩

theorem irqRetry_sound {s : State} (h : s.Sound) : Ensures (execIrqRetry s) State.Sound := by
  unfold execIrqRetry
  split
  · obtain ⟨⟨hparams, hshape, hbus, hdrives⟩, hoff⟩ :=
      List.foldlRecOn (List.range s.drives.length) State.retryDrive
        (motive := fun t : State => t.BodySound ∧ t.OffReleases) ⟨h.body, h.offReleases⟩
        fun t ht d _ => ht.1.retryDrive ht.2 d
    exact ensures_done ⟨hparams, hshape, hbus, hdrives, rfl, hoff⟩
  · exact ensures_refused _ _

/-! ### The other operations with more than one outcome -/

theorem keeps_sound {s : State} (h : s.Sound) (r : Result) : Ensures (done s r) State.Sound :=
  ensures_done (h.congr rfl rfl rfl rfl)

theorem mechTick_sound {s : State} (h : s.Sound) (d : Nat) :
    Ensures (execMechTick d s) State.Sound := by
  refine ensures_onDrive fun dr hdr => ?_
  split
  · exact keeps_sound (h.tick hdr ‹_›) _
  · exact ensures_refused _ _

theorem busNotify_sound {s : State} (h : s.Sound) (q : Nat) (l : Line) (v : Bool) :
    Ensures (execBusNotify q l v s) State.Sound := by
  unfold execBusNotify
  split
  · exact keeps_sound ((h.body.notify q l v).sound (State.RetrySettled.notify h.retry q l v)
      (State.OffReleases.of_traits h.offReleases (notify_traits ..) fun _ _ _ _ => by simp)) _
  · exact ensures_refused _ _

theorem dskOffset_sound {s : State} (h : s.Sound) (table : List Nat) (track sector : Nat) :
    Ensures (execDskOffset table track sector s) State.Sound := by
  unfold execDskOffset
  split
  · exact ensures_refused _ _
  · exact keeps_sound h _

theorem parWrdata_sound {s : State} (h : s.Sound) (v : Byte) :
    Ensures (execParWrdata v s) State.Sound := by
  refine keeps_sound ?_ _
  split
  · exact h.congr rfl rfl rfl rfl
  · exact h

theorem parWrack_sound {s : State} (h : s.Sound) (v : Bool) :
    Ensures (execParWrack v s) State.Sound := by
  refine keeps_sound ?_ _
  split
  · exact h.congr rfl rfl rfl rfl
  · exact h

theorem tpiRdPc_sound {s : State} (h : s.Sound) (d : Nat) :
    Ensures (execTpiRdPc d s) State.Sound := by
  refine ensures_onTpi fun dr t _ _ => ?_
  dsimp only
  split
  · exact keeps_sound h.drawn _
  · exact keeps_sound h _

/-- R34: clearing bits of `air` keeps bits 7:5 at 0. -/
theorem air_clean_and {a : Byte} (m : Byte) (h : a.extractLsb' 5 3 = 0) :
    (a &&& m).extractLsb' 5 3 = 0 := by
  simp [BitVec.extractLsb'_and, h]

/-- R34: a pending source lies in bits 4:0. -/
theorem air_clean_setPending {a : Byte} (h : a.extractLsb' 5 3 = 0) (n : Fin 5) :
    (a ||| (1#8 <<< n.val)).extractLsb' 5 3 = 0 := by
  have hbit : (1#8 <<< n.val).extractLsb' 5 3 = 0 := by
    revert n
    decide
  simp [BitVec.extractLsb'_or, h, hbit]

theorem tpiRdAir_sound {s : State} (h : s.Sound) (d : Nat) :
    Ensures (execTpiRdAir d s) State.Sound := by
  refine ensures_onTpi fun _ _ hdr hon => keeps_sound (h.mapTpi_irqUpdate hdr hon ?_ ?_) _
  · exact fun _ => ⟨rfl, rfl⟩
  · exact fun _ => air_clean_and _

theorem tpiWrCr_sound {s : State} (h : s.Sound) (d : Nat) (v : Byte) :
    Ensures (execTpiWrCr d v s) State.Sound := by
  refine ensures_onTpi fun dr t hdr hon => keeps_sound (h.mapTpi_irqUpdate hdr hon ?_ ?_) _
  · intro x
    obtain ⟨-, -, hirq, hretry⟩ := applyAck_keeps s.params { x with cr := v }
    exact ⟨hirq, hretry⟩
  · intro x hair
    obtain ⟨-, hsame, -⟩ := applyAck_keeps s.params { x with cr := v }
    rw [hsame]
    exact hair

theorem tpiIrqin_sound {s : State} (h : s.Sound) (d : Nat) (n : Fin 5) (level : Bool) :
    Ensures (execTpiIrqin d n level s) State.Sound := by
  refine ensures_onTpi fun dr t hdr hon => keeps_sound ?_ _
  have hlevel : (s.mapTpi d fun t => t.setLevel n level).Sound :=
    h.mapTpi hdr hon fun _ => ⟨rfl, rfl, rfl, rfl⟩
  split
  · exact hlevel.mapTpi_irqUpdate (mapCtl_drive hdr _) hon (fun _ => ⟨rfl, rfl⟩)
      fun _ hair => air_clean_setPending hair n
  · exact hlevel

/-! ### Every operation, every step -/

theorem exec_sound {s : State} (h : s.Sound) (i : Instr) : Ensures (exec i s) State.Sound := by
  cases i with
  | sysReset => exact sysReset_sound h
  | sysPwron d => exact sysPwron_sound h d
  | sysPwroff d => exact sysPwroff_sound h d
  | sysMount d f bytes len wp => exact sysMount_sound h d f bytes len wp
  | sysUnmount d => exact sysUnmount_sound h d
  | mechTick d => exact mechTick_sound h d
  | irqRetry => exact irqRetry_sound h
  | mechCtrl d c =>
    exact ensures_onPowered fun _ hdr hon => keeps_sound (h.mechCtrl hdr hon c) _
  | mechRegen d =>
    exact ensures_onPowered fun _ hdr _ => keeps_sound
      (h.mapDrive hdr ((h.drive hdr).regen h.params) (by simp) (by simp)) _
  | mechStep d new => exact ensures_onPowered fun _ hdr _ => keeps_sound (h.mechStep hdr new) _
  | irqUpdate d => exact ensures_onPowered fun _ hdr hon => keeps_sound (h.irqUpdate hdr hon) _
  | viabRdPb d | viadRdPb d | viaRdDdrb d | viaRdDdra d =>
    exact ensures_onVia fun _ _ _ _ _ => keeps_sound h _
  | viaRdCt d => exact ensures_onVia fun _ _ _ _ _ => keeps_sound h.drawn _
  | viabRdPa d | viadRdPa d =>
    exact ensures_onVia fun _ _ _ hdr hon => keeps_sound (h.setCa1 hdr hon _ _) _
  | viabWrPa d | viadWrPa d =>
    refine ensures_onVia fun _ _ _ hdr hon => keeps_sound (h.mapVia_setCa1 hdr hon _ ?_ _) _
    exact fun _ => ⟨rfl, rfl, rfl⟩
  | viabWrPb d =>
    refine ensures_onVia fun _ _ _ hdr hon => keeps_sound
      ((h.mapVia hdr hon _ ?_).applyBusOutputs (mapCtl_drive hdr _) hon) _
    exact fun _ => ⟨rfl, rfl, rfl⟩
  | viadWrPb d =>
    refine ensures_onVia fun _ _ _ hdr hon => keeps_sound
      ((h.mapVia hdr hon _ ?_).applyControl (mapCtl_drive hdr _) hon) _
    exact fun _ => ⟨rfl, rfl, rfl⟩
  | viaWrDdrb d c =>
    refine ensures_onVia fun _ _ _ hdr hon => keeps_sound
      ((h.mapVia hdr hon _ ?_).applyPortB (mapCtl_drive hdr _) hon c) _
    exact fun _ => ⟨rfl, rfl, rfl⟩
  | viaWrDdra d =>
    refine ensures_onVia fun _ _ _ hdr hon => keeps_sound (h.mapVia hdr hon _ ?_) _
    exact fun _ => ⟨rfl, rfl, rfl⟩
  | viaWrCt d | viaOtherirq d =>
    refine ensures_onVia fun _ _ _ hdr hon => keeps_sound (h.mapVia_irqUpdate hdr hon _ ?_) _
    exact fun _ => ⟨rfl, rfl⟩
  | tpiRdPa d | tpiRdPb d | tpiRdDdra d | tpiRdDdrb d | tpiRdDdrc d | tpiRdCr d | tpiWrAir d =>
    exact ensures_onTpi fun _ _ _ _ => keeps_sound h _
  | tpiRdPc d => exact tpiRdPc_sound h d
  | tpiRdAir d => exact tpiRdAir_sound h d
  | tpiWrPa d | tpiWrPb d | tpiWrDdra d | tpiWrDdrb d | tpiHostwr d =>
    refine ensures_onTpi fun _ _ hdr hon => keeps_sound (h.mapTpi hdr hon ?_) _
    exact fun _ => ⟨rfl, rfl, rfl, rfl⟩
  | tpiWrPc d | tpiWrDdrc d =>
    refine ensures_onTpi fun _ _ hdr hon => keeps_sound (h.mapTpi hdr hon ?_) _
    exact fun _ => applyAck_keeps _ _
  | tpiWrCr d v => exact tpiWrCr_sound h d v
  | tpiIrqin d n level => exact tpiIrqin_sound h d n level
  | tpiHostrd d => exact ensures_onTpiDrive fun _ _ _ => keeps_sound h _
  | busSet p l v => exact ensures_onParticipant fun hp => keeps_sound (h.busSet hp l v) _
  | busNotify q l v => exact busNotify_sound h q l v
  | parEnable =>
    refine keeps_sound ?_ _
    exact h.congr rfl rfl rfl rfl
  | parWrdata v => exact parWrdata_sound h v
  | parWrack v => exact parWrack_sound h v
  | dskOffset table track sector => exact dskOffset_sound h table track sector
  | busGet | parRddata | parRdack | gcrEnc4 | gcrDec5 | gcrEncsec | gcrDechdr | gcrDecdata
  | dskBuild => exact keeps_sound h _

/-- A step that is taken is an operation performed on the remaining requests. -/
theorem step_next {s t : State} (h : step s = .next t) :
    ∃ i rest, exec i (s.withRequests rest) = .next t := by
  unfold step at h
  split at h
  · cases h
  · rename_i r rest _
    split at h
    · cases h
    · cases h
    · exact ⟨_, rest, (onAgent_next h).1⟩

/-- Settles O8: every operation keeps the invariant, whatever requests remain. -/
theorem everyStepKeepsSound : Obligations.EveryStepKeepsSound := by
  intro s t hs hstep
  obtain ⟨i, rest, hexec⟩ := step_next hstep
  exact exec_sound (hs.withRequests rest) i t hexec

/-! ### The machine right after reset -/

/-- A drive right after reset (R53, R306). -/
theorem afterReset_sound (sel : Bits2) : (Drive.afterReset sel).Sound defaultParams where
  mech := {
    bufferLength := List.length_replicate
    cursor := Nat.zero_le _
    headLow := le_rfl
    headHigh := by show 2 ≤ 2 * 35; decide
    sector := nofun
    ffcount := Nat.zero_le _
    sync := rfl }
  image := nofun
  timer := ⟨rfl, ⟨0, rfl⟩, nofun, fun _ => rfl⟩
  irqCurrent := ⟨rfl, rfl⟩
  cpuIrq := rfl
  off := fun _ => rfl
  retry := ⟨nofun, nofun⟩
  air := trivial
  ackOff := nofun

/-- Settles O7: every drive is as after reset and powered, every latch and line released. -/
theorem resetIsSound : Obligations.ResetIsSound where
  params := by decide
  shape := ⟨by decide, by decide, rfl⟩
  bus := by intro l; cases l <;> rfl
  drives := by
    intro dr hdr
    simp only [State.reset, List.mem_cons, List.not_mem_nil, or_false] at hdr
    rcases hdr with rfl | rfl <;> exact afterReset_sound _
  retry := rfl
  offReleases := by
    intro d dr hdr hoff
    have hmem := List.mem_of_getElem? hdr
    simp only [State.reset, List.mem_cons, List.not_mem_nil, or_false] at hmem
    rcases hmem with rfl | rfl <;> cases hoff

end Sys2Proof.Machine
end

section
/-! Where the cursor, the head and the sector index of every drive stand (R30), read off a state as
its `places`: the operations of the chips and of the bus keep them, and `exec` moves them as
`Place.Moved` says. -/

namespace Sys2Proof.Machine

set_option Elab.async false

/-- The cursor, the head and the sector index of a mechanism. -/
structure Place where
  pos : Nat
  ht : Nat
  sector : Nat

def Drive.place (dr : Drive) : Place := ⟨dr.mech.pos, dr.mech.ht, dr.mech.sector⟩

/-- The places of all drives. -/
def State.places (s : State) : List Place := s.drives.map Drive.place

/-! ### What the operations of a drive do to its place -/

@[simp] theorem Drive.updateIrq_place (P : Params) (dr : Drive) :
    (dr.updateIrq P).place = dr.place := rfl

@[simp] theorem Drive.regen_place (P : Params) (dr : Drive) : (dr.regen P).place = dr.place := by
  simp [Drive.place]

@[simp] theorem Drive.setMotorZone_place (P : Params) (dr : Drive) (m : Bool) (z : Bits2) :
    (dr.setMotorZone P m z).place = dr.place := by
  unfold Drive.setMotorZone
  split
  · rfl
  · split <;> rfl

@[simp] theorem Drive.notified_place (P : Params) (l : Line) (v : Bool) (dr : Drive) :
    (Drive.notified P l v dr).place = dr.place := by
  unfold Drive.notified
  split
  · split <;> rfl
  · rfl

/-- R187: a stepper write leaves the cursor. -/
@[simp] theorem Drive.step_place_pos (P : Params) (dr : Drive) (new : Bits2) :
    (dr.step P new).place.pos = dr.place.pos := by
  unfold Drive.step Drive.moveHead
  split
  · rfl
  · split
    · rw [Drive.regen_place]
      rfl
    · rw [Drive.regen_place]
      rfl

@[simp] theorem Drive.control_place_pos (P : Params) (dr : Drive) (c : Byte) :
    (dr.control P c).place.pos = dr.place.pos := by
  simp [Drive.control]

/-- R183: the cursor moves by one and wraps from 364. -/
theorem Drive.advance_place_pos (P : Params) (dr : Drive) :
    (dr.advance P).place.pos = if dr.place.pos < 364 then dr.place.pos + 1 else 0 := by
  unfold Drive.advance
  split
  case isTrue hpos => exact (if_pos hpos).symm
  case isFalse hpos =>
    rw [show (if dr.place.pos < 364 then dr.place.pos + 1 else 0) = 0 from if_neg hpos]
    split
    · rfl
    · rw [Drive.regen_place]
      rfl

/-- R183: the rotation leaves the head. -/
theorem Drive.advance_place_ht (P : Params) (dr : Drive) :
    (dr.advance P).place.ht = dr.place.ht := by
  unfold Drive.advance
  split
  · rfl
  · split
    · rfl
    · rw [Drive.regen_place]
      rfl

@[simp] theorem Drive.powerOff_place (dr : Drive) : dr.powerOff.place = dr.place := rfl

/-! ### What the shared operations do to the places of a state -/

theorem mapDrive_keeps_places {f : Drive → Drive} (hf : ∀ dr, (f dr).place = dr.place) (s : State)
    (d : Nat) : (s.mapDrive d f).places = s.places := by
  simp [State.places, map_modify (g := id) hf]

@[simp] theorem mapCtl_places (s : State) (d : Nat) (f : Controller → Controller) :
    (s.mapCtl d f).places = s.places := by
  refine mapDrive_keeps_places ?_ s d
  exact fun _ => rfl

@[simp] theorem mapTpi_places (s : State) (d : Nat) (f : TpiChip → TpiChip) :
    (s.mapTpi d f).places = s.places :=
  mapCtl_places ..

@[simp] theorem emit_places (s : State) (e : Event) : (s.emit e).places = s.places := rfl

@[simp] theorem recountRetry_places (s : State) : s.recountRetry.places = s.places := rfl

@[simp] theorem irqUpdate_places (s : State) (d : Nat) : (s.irqUpdate d).places = s.places := by
  have hkeep := mapDrive_keeps_places (Drive.updateIrq_place s.params) s d
  simpa [State.places] using hkeep

@[simp] theorem setCa1_places (s : State) (d : Nat) (c : ViaId) (v : Bool) :
    (s.setCa1 d c v).places = s.places := by
  simp [State.setCa1]

@[simp] theorem notify_places (s : State) (q : Nat) (l : Line) (v : Bool) :
    (s.notify q l v).places = s.places := by
  cases q with
  | zero => rfl
  | succ d =>
    have hkeep := mapDrive_keeps_places (Drive.notified_place s.params l v) s d
    simpa [State.places] using hkeep

@[simp] theorem notifyAll_places (s : State) (l : Line) (v : Bool) :
    (s.notifyAll l v).places = s.places :=
  List.foldlRecOn _ _ (motive := fun t : State => t.places = s.places) rfl
    fun t ht q _ => (notify_places t q l v).trans ht

@[simp] theorem busSet_places (s : State) (p : Nat) (l : Line) (v : Bool) :
    (s.busSet p l v).places = s.places := by
  rcases busSet_cases s p l v with ⟨-, heq⟩ | ⟨-, heq⟩
  · rw [heq]
    rfl
  · rw [heq, notifyAll_places]
    rfl

@[simp] theorem applyBusOutputs_places (s : State) (d : Nat) :
    (s.applyBusOutputs d).places = s.places := by
  unfold State.applyBusOutputs
  split
  · rfl
  · split <;> simp

@[simp] theorem ready_places (s : State) (d : Nat) : (s.ready d).places = s.places := by
  unfold State.ready
  split
  · rfl
  · split <;> simp

@[simp] theorem chipReset_places (s : State) (d : Nat) : (s.chipReset d).places = s.places := by
  simp [State.chipReset]

@[simp] theorem retryDrive_places (s : State) (d : Nat) : (s.retryDrive d).places = s.places := by
  rcases retryDrive_cases s d with heq | ⟨dr, es, -, -, heq⟩
  · rw [heq]
  · rw [heq, mapCtl_places]
    rfl

/-! ### What an operation does to the places -/

/-- How operation `i` may move the place `p` of drive `d`, now `p'` (R30). -/
structure Place.Moved (i : Instr) (d : Nat) (p p' : Place) : Prop where
  tick : i = .mechTick d → p'.pos = if p.pos < 364 then p.pos + 1 else 0
  pos : i ≠ .mechTick d → placesHead d i = false → p'.pos = p.pos
  ht : writesStepper d i = false → placesHead d i = false → i ≠ .sysUnmount d → p'.ht = p.ht
  sector : i ≠ .mechTick d → writesStepper d i = false → placesHead d i = false →
    p'.sector = p.sector

theorem Place.Moved.refl {i : Instr} {d : Nat} (hi : i ≠ .mechTick d) (p : Place) : p.Moved i d p :=
  ⟨fun h => absurd h hi, fun _ _ => rfl, fun _ _ _ => rfl, fun _ _ _ => rfl⟩

/-- Every drive was moved as operation `i` may move it. -/
def Moves (i : Instr) (s t : State) : Prop :=
  ∀ (d : Nat) (p p' : Place), s.places[d]? = some p → t.places[d]? = some p' → p.Moved i d p'

theorem moves_of_places_eq {i : Instr} {s t : State} (h : t.places = s.places)
    (hi : ∀ d, i ≠ .mechTick d := by exact fun _ => nofun) : Moves i s t := by
  intro d p p' hp hp'
  obtain rfl := Option.some.inj (hp.symm.trans (h ▸ hp'))
  exact .refl (hi d) p

/-- An operation that changes drive `e` alone moves no other drive. -/
theorem moves_of_mapDrive {i : Instr} {s t : State} {e : Nat} {f : Drive → Drive}
    (h : t.places = (s.mapDrive e f).places)
    (hf : ∀ dr : Drive, dr.place.Moved i e (f dr).place)
    (hi : ∀ d, d ≠ e → i ≠ .mechTick d := by exact fun _ _ => nofun) : Moves i s t := by
  intro d p p' hp hp'
  rw [h] at hp'
  obtain ⟨dr, hdr, rfl⟩ : ∃ dr, s.drives[d]? = some dr ∧ dr.place = p := by
    simpa [State.places] using hp
  obtain ⟨dr', hdr', rfl⟩ : ∃ dr', (s.mapDrive e f).drives[d]? = some dr' ∧ dr'.place = p' := by
    simpa only [State.places, List.getElem?_map, Option.map_eq_some_iff] using hp'
  rcases getElem?_modify_some hdr' with ⟨hne, hsame⟩ | ⟨rfl, x, hx, rfl⟩
  · obtain rfl := Option.some.inj (hdr.symm.trans hsame)
    exact .refl (hi d (Ne.symm hne)) _
  · obtain rfl := Option.some.inj (hdr.symm.trans hx)
    exact hf dr

/-- R183: what a tick does to a drive. -/
theorem moves_tick (s : State) (d : Nat) : Moves (.mechTick d) s (s.tick d) := by
  refine moves_of_mapDrive (ready_places ..) (fun dr => ?_)
    fun e he h => he (Instr.mechTick.inj h).symm
  exact ⟨fun _ => Drive.advance_place_pos .., fun h => absurd rfl h,
    fun _ _ _ => Drive.advance_place_ht .., fun h => absurd rfl h⟩

/-- An operation that writes the stepper of drive `d` alone, and leaves its cursor. -/
theorem moves_of_stepper {i : Instr} {s t : State} {d : Nat} {f : Drive → Drive}
    (hwrites : writesStepper d i = true) (h : t.places = (s.mapDrive d f).places)
    (hf : ∀ dr, (f dr).place.pos = dr.place.pos)
    (hi : ∀ d, i ≠ .mechTick d := by exact fun _ => nofun) : Moves i s t := by
  refine moves_of_mapDrive h (fun dr => ?_) fun e _ => hi e
  exact ⟨fun h => absurd h (hi d), fun _ _ => hf dr, fun h => by simp [hwrites] at h,
    fun _ h => by simp [hwrites] at h⟩

/-- R186, R220, R228: the disk chip's control pins command the mechanism of drive `d`. -/
theorem moves_applyControl {i : Instr} {d : Nat} (hwrites : writesStepper d i = true) (s : State)
    (hi : ∀ d, i ≠ .mechTick d := by exact fun _ => nofun) : Moves i s (s.applyControl d) := by
  unfold State.applyControl
  split
  · exact moves_of_places_eq rfl hi
  · split
    · exact moves_of_places_eq rfl hi
    · exact moves_of_stepper hwrites rfl (fun _ => Drive.control_place_pos ..) hi

/-- A register change before an operation moves nothing. -/
theorem moves_after_mapCtl {i : Instr} {s t : State} {d : Nat} {f : Controller → Controller}
    (h : Moves i (s.mapCtl d f) t) : Moves i s t := by
  intro e p p' hp
  exact h e p p' (by rwa [mapCtl_places])

theorem moves_keep {i : Instr} {s t : State} (h : t.places = s.places) (r : Result)
    (hi : ∀ d, i ≠ .mechTick d := by exact fun _ => nofun) : Ensures (done t r) (Moves i s) :=
  ensures_done (moves_of_places_eq h hi)

theorem moves_done {i : Instr} {s t : State} (h : Moves i s t) (r : Result) :
    Ensures (done t r) (Moves i s) :=
  ensures_done h

theorem mechTick_moves (d : Nat) (s : State) :
    Ensures (execMechTick d s) (Moves (.mechTick d) s) := by
  refine ensures_onDrive fun dr _ => ?_
  split
  · exact moves_done (moves_tick s d) _
  · exact ensures_refused _ _

/-- R300: nothing is claimed of where a reset leaves a place. -/
theorem moves_sysReset (s t : State) : Moves .sysReset s t :=
  fun _ _ _ _ _ => ⟨nofun, fun _ => nofun, fun _ => nofun, fun _ _ => nofun⟩

theorem sysPwron_moves (d : Nat) (s : State) :
    Ensures (execSysPwron d s) (Moves (.sysPwron d) s) := by
  refine ensures_onDrive fun dr _ => ?_
  split
  · exact ensures_refused _ _
  · refine moves_keep ?_ _
    rw [chipReset_places]
    exact mapDrive_keeps_places (fun _ => by rfl) s d

theorem sysPwroff_moves (d : Nat) (s : State) :
    Ensures (execSysPwroff d s) (Moves (.sysPwroff d) s) := by
  refine ensures_onPowered fun dr _ _ => moves_keep ?_ _
  simp [mapDrive_keeps_places Drive.powerOff_place]

/-- R192: a mount places the head of its own drive. -/
theorem sysMount_moves (d : Nat) (f : Format) (bytes : List Host.Cell) (len : Nat) (wp : Bool)
    (s : State) :
    Ensures (execSysMount d f bytes len wp s) (Moves (.sysMount d f bytes len wp) s) := by
  refine ensures_onDrive fun dr _ => ?_
  split
  · exact ensures_refused _ _
  · refine moves_done (moves_of_mapDrive rfl fun dr => ?_) _
    exact ⟨nofun, by simp [placesHead], by simp [placesHead], by simp [placesHead]⟩

/-- R193: an unmount clamps the head of its own drive. -/
theorem sysUnmount_moves (d : Nat) (s : State) :
    Ensures (execSysUnmount d s) (Moves (.sysUnmount d) s) := by
  refine ensures_onDrive fun dr _ => ?_
  refine moves_done (moves_of_mapDrive (recountRetry_places _) fun dr => ?_) _
  exact ⟨nofun, fun _ _ => rfl, fun _ _ h => absurd rfl h, fun _ _ _ => rfl⟩

theorem irqRetry_moves (s : State) : Ensures (execIrqRetry s) (Moves .irqRetry s) := by
  unfold execIrqRetry
  split
  · refine moves_keep ?_ _
    rw [recountRetry_places]
    exact List.foldlRecOn _ _ (motive := fun t : State => t.places = s.places) rfl
      fun t ht d _ => (retryDrive_places t d).trans ht
  · exact ensures_refused _ _

theorem viaWrDdrb_moves (d : Nat) (c : ViaId) (v : Byte) (s : State) :
    Ensures (execViaWrDdrb d c v s) (Moves (.viaWrDdrb d c v) s) := by
  refine ensures_onVia fun _ _ _ _ _ => ?_
  cases c with
  | viab => exact moves_keep (by simp [applyPortB]) _
  | viad =>
    refine moves_done (moves_after_mapCtl (moves_applyControl ?_ _)) _
    simp [writesStepper]

theorem tpiRdPc_moves (d : Nat) (s : State) : Ensures (execTpiRdPc d s) (Moves (.tpiRdPc d) s) := by
  refine ensures_onTpi fun dr t _ _ => ?_
  dsimp only
  split <;> exact moves_keep rfl _

theorem tpiIrqin_moves (d : Nat) (n : Fin 5) (level : Bool) (s : State) :
    Ensures (execTpiIrqin d n level s) (Moves (.tpiIrqin d n level) s) := by
  refine ensures_onTpi fun dr t _ _ => moves_keep ?_ _
  split <;> simp

theorem busNotify_moves (q : Nat) (l : Line) (v : Bool) (s : State) :
    Ensures (execBusNotify q l v s) (Moves (.busNotify q l v) s) := by
  unfold execBusNotify
  split
  · exact moves_keep (notify_places ..) _
  · exact ensures_refused _ _

theorem parWrdata_moves (v : Byte) (s : State) :
    Ensures (execParWrdata v s) (Moves (.parWrdata v) s) := by
  refine moves_keep ?_ _
  split <;> rfl

theorem parWrack_moves (v : Bool) (s : State) :
    Ensures (execParWrack v s) (Moves (.parWrack v) s) := by
  refine moves_keep ?_ _
  split <;> rfl

theorem dskOffset_moves (table : List Nat) (track sector : Nat) (s : State) :
    Ensures (execDskOffset table track sector s) (Moves (.dskOffset table track sector) s) := by
  unfold execDskOffset
  split
  · exact ensures_refused _ _
  · exact moves_keep rfl _

/-- Every operation moves the places as `Place.Moved` says. -/
theorem exec_moves (i : Instr) (s : State) : Ensures (exec i s) (Moves i s) := by
  cases i with
  | sysReset => exact ensures_done (moves_sysReset s _)
  | sysPwron d => exact sysPwron_moves d s
  | sysPwroff d => exact sysPwroff_moves d s
  | sysMount d f bytes len wp => exact sysMount_moves d f bytes len wp s
  | sysUnmount d => exact sysUnmount_moves d s
  | mechTick d => exact mechTick_moves d s
  | irqRetry => exact irqRetry_moves s
  | mechCtrl d c =>
    refine ensures_onPowered fun _ _ _ => moves_done (moves_of_stepper ?_ rfl ?_) _
    · simp [writesStepper]
    · exact fun _ => Drive.control_place_pos ..
  | mechStep d new =>
    refine ensures_onPowered fun _ _ _ => moves_done (moves_of_stepper ?_ rfl ?_) _
    · simp [writesStepper]
    · exact fun _ => Drive.step_place_pos ..
  | mechRegen d =>
    exact ensures_onPowered fun _ _ _ => moves_keep (mapDrive_keeps_places (by simp) s d) _
  | irqUpdate d => exact ensures_onPowered fun _ _ _ => moves_keep (irqUpdate_places s d) _
  | viadWrPb d v =>
    refine ensures_onVia fun _ _ _ _ _ => moves_done (moves_after_mapCtl
      (moves_applyControl ?_ _)) _
    simp [writesStepper]
  | viaWrDdrb d c v => exact viaWrDdrb_moves d c v s
  | viabRdPb d | viadRdPb d | viaRdDdrb d | viaRdDdra d | viaRdCt d =>
    exact ensures_onVia fun _ _ _ _ _ => moves_keep rfl _
  | viabRdPa d | viabWrPb d | viabWrPa d | viadRdPa d | viadWrPa d | viaWrDdra d | viaWrCt d
  | viaOtherirq d =>
    exact ensures_onVia fun _ _ _ _ _ => moves_keep (by simp) _
  | tpiRdPa d | tpiRdPb d | tpiRdDdra d | tpiRdDdrb d | tpiRdDdrc d | tpiRdCr d | tpiWrAir d =>
    exact ensures_onTpi fun _ _ _ _ => moves_keep rfl _
  | tpiRdAir d | tpiWrPa d | tpiWrPb d | tpiWrPc d | tpiWrDdra d | tpiWrDdrb d | tpiWrDdrc d
  | tpiWrCr d | tpiHostwr d =>
    exact ensures_onTpi fun _ _ _ _ => moves_keep (by simp) _
  | tpiRdPc d => exact tpiRdPc_moves d s
  | tpiIrqin d n level => exact tpiIrqin_moves d n level s
  | tpiHostrd d => exact ensures_onTpiDrive fun _ _ _ => moves_keep rfl _
  | busSet p l v => exact ensures_onParticipant fun _ => moves_keep (busSet_places s p l v) _
  | busNotify q l v => exact busNotify_moves q l v s
  | parWrdata v => exact parWrdata_moves v s
  | parWrack v => exact parWrack_moves v s
  | dskOffset table track sector => exact dskOffset_moves table track sector s
  | busGet | parEnable | parRddata | parRdack | gcrEnc4 | gcrDec5 | gcrEncsec | gcrDechdr
  | gcrDecdata | dskBuild => exact moves_keep rfl _

theorem place_of_some {s : State} {d : Nat} {dr : Drive} (h : s.drives[d]? = some dr) :
    s.places[d]? = some dr.place := by
  simp [State.places, h]

/-- Settles O10: the clauses are those of `Place.Moved`, which every operation meets. -/
theorem whatMovesTheHead : Obligations.WhatMovesTheHead := by
  intro i s t d dr dr' hexec hdr hdr'
  obtain ⟨htick, hpos, hht, hsector⟩ :=
    exec_moves i s t hexec d dr.place dr'.place (place_of_some hdr) (place_of_some hdr')
  exact ⟨htick, hpos, hht, hsector⟩

end Sys2Proof.Machine
end

section
/-! The register windows of a drive's chips (R60 to R62): what an access at a window offset performs,
through the register that stands there (`viaRegAt`). -/

namespace Sys2Proof.Machine

set_option Elab.async false

/-! ### A window access is the access to the register at its offset -/

theorem regRead_via (o : ViaOffsets) (d : Nat) (c : ViaId) (off : Nat) :
    regRead o d c.chip off = viaRead d c (viaRegAt o off) := by
  cases c <;> rfl

theorem regWrite_via (o : ViaOffsets) (d : Nat) (c : ViaId) (off : Nat) (v : Byte) :
    regWrite o d c.chip off v = viaWrite d v c (viaRegAt o off) := by
  cases c <;> rfl

theorem windowRead_via {s : State} {off : Nat} {x : ViaReg}
    (hx : viaRegAt s.params.viaOffsets off = x) (d : Nat) (c : ViaId) :
    s.windowRead d c.chip off = exec (viaRead d c x) s := by
  rw [State.windowRead, regRead_via, hx]

theorem windowWrite_via {s : State} {off : Nat} {x : ViaReg}
    (hx : viaRegAt s.params.viaOffsets off = x) (d : Nat) (c : ViaId) (v : Byte) :
    s.windowWrite d c.chip off v = exec (viaWrite d v c x) s := by
  rw [State.windowWrite, regWrite_via, hx]

/-- The registers of a VIA-style window at the default offsets, in ascending order (R61). -/
def defaultViaRegs : List ViaReg := [.pb, .pa, .ddrb, .ddra, .ct 0, .ct 1, .ct 2, .ct 3]

theorem map_regRead_default (d : Nat) (c : ViaId) :
    (List.range 8).map (regRead defaultViaOffsets d c.chip) = defaultViaRegs.map (viaRead d c) := by
  rw [defaultViaRegs, ← viaRegAt_default, List.map_map]
  exact List.map_congr_left fun n _ => regRead_via _ d c n

theorem map_regWrite_default (d : Nat) (c : ViaId) (v : Byte) :
    (List.range 8).map (fun n => regWrite defaultViaOffsets d c.chip n v) =
      defaultViaRegs.map (viaWrite d v c) := by
  rw [defaultViaRegs, ← viaRegAt_default, List.map_map]
  exact List.map_congr_left fun n _ => regWrite_via _ d c n v

/-- R62: the offset counts modulo 8. -/
theorem viaRegAt_add_eight (o : ViaOffsets) (off : Nat) : viaRegAt o (off + 8) = viaRegAt o off := by
  rw [← viaRegAt_mod, Nat.add_mod_right, viaRegAt_mod]

theorem regRead_add_eight (o : ViaOffsets) (d : Nat) (chip : ChipId) (off : Nat) :
    regRead o d chip (off + 8) = regRead o d chip off := by
  cases chip <;> simp [regRead, viaRegAt_add_eight, tpiRead]

theorem regWrite_add_eight (o : ViaOffsets) (d : Nat) (chip : ChipId) (off : Nat) (v : Byte) :
    regWrite o d chip (off + 8) v = regWrite o d chip off v := by
  cases chip <;> simp [regWrite, viaRegAt_add_eight, tpiWrite]

/-- Settles O4: each window access is the access to the register `viaRegAt` finds. -/
theorem registerWindowMap : Obligations.RegisterWindowMap := by
  refine ⟨fun d v => ?_, fun o d v => ⟨rfl, rfl⟩, fun s d v hwf => ?_, fun o d chip off v =>
    ⟨regRead_add_eight o d chip off, regWrite_add_eight o d chip off v⟩⟩
  · exact ⟨map_regRead_default d .viab, map_regRead_default d .viad,
      map_regWrite_default d .viab v, map_regWrite_default d .viad v⟩
  · obtain ⟨hpb, hpa, hddrb, hddra⟩ := viaRegAt_named hwf
    refine ⟨windowRead_via hpb d .viab, windowRead_via hpa d .viab, windowRead_via hpb d .viad,
      windowRead_via hpa d .viad, windowWrite_via hpb d .viab v, windowWrite_via hpa d .viab v,
      windowWrite_via hpb d .viad v, windowWrite_via hpa d .viad v, fun c => ?_⟩
    have hct (k : Fin 4) (n : Fin 8) := viaRegAt_ct s.params.viaOffsets k n
    cases c <;>
      exact ⟨windowRead_via hddrb d _, windowRead_via hddra d _, windowWrite_via hddrb d _ v,
        windowWrite_via hddra d _ v, fun k n hfree hk =>
          ⟨windowRead_via (hct k n hfree hk) d _, windowWrite_via (hct k n hfree hk) d _ v⟩⟩

end Sys2Proof.Machine
end

section
/-! What an operation changes outside the drive it is addressed to, and of the mounted images: the
few that can reach the bus (`reachesBus`) through `BUS.SET`, every other one not at all (R63, R79,
R161). -/

namespace Sys2Proof.Machine

set_option Elab.async false

/-! ### The image of a drive (R28, R64) -/

/-- The images mounted in the drives. -/
def State.images (s : State) : List (Option Image) := s.drives.map Drive.img

theorem sameImages_of_images_eq {s t : State} (h : t.images = s.images) : SameImages s t := by
  intro d dr dr' hdr hdr'
  have himg : dr'.img = dr.img := by
    have hget := congrArg (·[d]?) h
    simpa [State.images, hdr, hdr'] using hget
  exact ⟨himg, fun a => by rw [Drive.imgRead, Drive.imgRead, himg]⟩

theorem images_of_modify {s t : State} {d : Nat} {f : Drive → Drive}
    (hdrives : t.drives = s.drives.modify d f) (hf : ∀ dr, (f dr).img = dr.img) :
    t.images = s.images := by
  simp [State.images, hdrives, map_modify (g := id) hf]

@[simp] theorem mapCtl_images (s : State) (d : Nat) (f : Controller → Controller) :
    (s.mapCtl d f).images = s.images :=
  images_of_modify (State.mapCtl_drives s d f) fun _ => rfl

@[simp] theorem Drive.step_img (P : Params) (dr : Drive) (new : Bits2) :
    (dr.step P new).img = dr.img := by
  obtain ⟨-, -, -, himg, -⟩ := moveHead_rest P (dr.withPhase new)
    (steppedHt (dr.maxTrack P) dr.mech.ht dr.mech.phase new)
  exact himg

@[simp] theorem Drive.setMotorZone_img (P : Params) (dr : Drive) (m : Bool) (z : Bits2) :
    (dr.setMotorZone P m z).img = dr.img := by
  unfold Drive.setMotorZone
  split
  · rfl
  · split <;> rfl

@[simp] theorem Drive.control_img (P : Params) (dr : Drive) (c : Byte) :
    (dr.control P c).img = dr.img := by
  simp [Drive.control]

@[simp] theorem Drive.advance_img (P : Params) (dr : Drive) : (dr.advance P).img = dr.img := by
  unfold Drive.advance
  split
  · rfl
  · split <;> simp

@[simp] theorem Drive.notified_img (P : Params) (l : Line) (v : Bool) (dr : Drive) :
    (Drive.notified P l v dr).img = dr.img := by
  unfold Drive.notified
  split
  · split <;> rfl
  · rfl

@[simp] theorem Drive.reset_img (P : Params) (dr : Drive) : (dr.reset P).img = dr.img := by
  simp [Drive.reset, Drive.resetMech]

/-! ### Images and notifications (R161, R165) -/

@[simp] theorem notify_images (s : State) (q : Nat) (l : Line) (v : Bool) :
    (s.notify q l v).images = s.images := by
  cases q with
  | zero => rfl
  | succ d => exact images_of_modify (notify_drives s d l v) (Drive.notified_img s.params l v)

@[simp] theorem notifyAll_images (s : State) (l : Line) (v : Bool) :
    (s.notifyAll l v).images = s.images :=
  List.foldlRecOn _ _ (motive := fun t : State => t.images = s.images) rfl
    fun t ht q _ => (notify_images t q l v).trans ht

@[simp] theorem busSet_images (s : State) (p : Nat) (l : Line) (v : Bool) :
    (s.busSet p l v).images = s.images := by
  rcases busSet_cases s p l v with ⟨-, heq⟩ | ⟨-, heq⟩
  · rw [heq]
    rfl
  · rw [heq, notifyAll_images]
    rfl

@[simp] theorem applyBusOutputs_images (s : State) (d : Nat) :
    (s.applyBusOutputs d).images = s.images := by
  unfold State.applyBusOutputs
  split
  · rfl
  · split <;> simp

/-! ### A change of one drive alone -/

/-- Operation `i` has changed drive `d` alone so far: not the bus, no other drive, and no image
unless it mounts or unmounts. -/
structure LocalTo (i : Instr) (d : Nat) (s t : State) : Prop where
  bus : t.bus = s.bus
  others : SameOtherDrives d s t
  images : touchesImage i = false → t.images = s.images

section
variable {i : Instr} {d : Nat} {s t u : State}

theorem LocalTo.refl : LocalTo i d s s := ⟨rfl, ⟨rfl, fun _ _ => rfl⟩, fun _ => rfl⟩

/-- A further change of drive `d`. -/
theorem LocalTo.modify (h : LocalTo i d s t) {f : Drive → Drive} (hbus : u.bus = t.bus)
    (hdrives : u.drives = t.drives.modify d f)
    (hf : touchesImage i = false → ∀ dr, (f dr).img = dr.img) : LocalTo i d s u := by
  obtain ⟨hbus', ⟨hlen, hothers⟩, himages⟩ := h
  refine ⟨hbus.trans hbus', ⟨?_, fun e he => ?_⟩, fun hi => ?_⟩
  · simp [hdrives, hlen]
  · simp [hdrives, Ne.symm he, hothers e he]
  · exact (images_of_modify hdrives (hf hi)).trans (himages hi)

/-- A change outside the bus and the drives. -/
theorem LocalTo.congr (h : LocalTo i d s t) (hbus : u.bus = t.bus) (hdrives : u.drives = t.drives) :
    LocalTo i d s u :=
  h.modify (f := id) hbus (by simp [hdrives]) fun _ _ => rfl

theorem LocalTo.mapDrive (h : LocalTo i d s t) {f : Drive → Drive}
    (hf : touchesImage i = false → ∀ dr, (f dr).img = dr.img) : LocalTo i d s (t.mapDrive d f) :=
  h.modify rfl rfl hf

theorem LocalTo.mapCtl (h : LocalTo i d s t) (f : Controller → Controller) :
    LocalTo i d s (t.mapCtl d f) :=
  h.mapDrive fun _ _ => rfl

theorem LocalTo.irqUpdate (h : LocalTo i d s t) : LocalTo i d s (t.irqUpdate d) :=
  h.modify (irqUpdate_bus t d) (irqUpdate_drives t d) fun _ => Drive.updateIrq_img (P := t.params)

theorem LocalTo.setCa1 (h : LocalTo i d s t) (c : ViaId) (v : Bool) :
    LocalTo i d s (t.setCa1 d c v) :=
  (h.mapCtl _).irqUpdate

theorem LocalTo.chipReset (h : LocalTo i d s t) : LocalTo i d s (t.chipReset d) :=
  (h.mapCtl _).irqUpdate

theorem LocalTo.mechCtrl (h : LocalTo i d s t) (c : Byte) : LocalTo i d s (t.mechCtrl d c) :=
  h.mapDrive fun _ _ => Drive.control_img ..

theorem LocalTo.applyControl (h : LocalTo i d s t) : LocalTo i d s (t.applyControl d) := by
  unfold State.applyControl
  split
  · exact h
  · split
    · exact h
    · exact h.mechCtrl _

theorem LocalTo.ready (h : LocalTo i d s t) : LocalTo i d s (t.ready d) := by
  have hpulse : LocalTo i d s (t.emit (.readyPulse d)) := h.congr rfl rfl
  unfold State.ready
  split
  · exact hpulse
  · split
    · exact hpulse.setCa1 _ _
    · exact hpulse

theorem LocalTo.tick (h : LocalTo i d s t) : LocalTo i d s (t.tick d) := by
  have hspun : LocalTo i d s (t.mapDrive d fun dr => (dr.advance t.params).detectSync) :=
    h.mapDrive fun _ _ => Drive.advance_img ..
  exact hspun.ready

theorem LocalTo.drawn (h : LocalTo i d s t) : LocalTo i d s t.drawn := h.congr rfl rfl

theorem LocalTo.completes (h : LocalTo i d s t) (r : Result) : Ensures (done t r) (LocalTo i d s) :=
  ensures_done (h.congr rfl rfl)

end

/-- The operation can write to the bus: a reset, a power-off, `BUS.SET`, and the writes of port B and
DDRB of a bus chip (R161, R216, R228, R300, R303). -/
def reachesBus : Instr → Bool
  | .sysReset => true
  | .sysPwroff _ => true
  | .busSet _ _ _ => true
  | .viabWrPb _ _ => true
  | .viaWrDdrb _ .viab _ => true
  | _ => false

theorem reachesBus_cases {i : Instr} (h : reachesBus i = true) :
    i = .sysReset ∨ (∃ d, i = .sysPwroff d) ∨ (∃ p l v, i = .busSet p l v) ∨
    (∃ d v, i = .viabWrPb d v) ∨ ∃ d v, i = .viaWrDdrb d .viab v := by
  unfold reachesBus at h
  split at h <;> simp at h ⊢

theorem sysPwron_local (d : Nat) (s : State) :
    Ensures (execSysPwron d s) (LocalTo (.sysPwron d) d s) := by
  refine ensures_onDrive fun dr _ => ?_
  split
  · exact ensures_refused _ _
  · refine LocalTo.completes (LocalTo.refl.mapDrive ?_).chipReset _
    exact fun _ _ => rfl

theorem sysMount_local (d : Nat) (f : Format) (bytes : List Host.Cell) (len : Nat) (wp : Bool)
    (s : State) :
    Ensures (execSysMount d f bytes len wp s) (LocalTo (.sysMount d f bytes len wp) d s) := by
  refine ensures_onDrive fun dr _ => ?_
  split
  · exact ensures_refused _ _
  · refine (LocalTo.refl.mapDrive ?_).completes _
    exact nofun

theorem sysUnmount_local (d : Nat) (s : State) :
    Ensures (execSysUnmount d s) (LocalTo (.sysUnmount d) d s) := by
  refine ensures_onDrive fun dr _ => LocalTo.completes ?_ _
  have hlocal : LocalTo (.sysUnmount d) d s (s.mapDrive d fun dr => dr.unmount s.params) :=
    LocalTo.refl.mapDrive nofun
  exact hlocal.congr rfl rfl

theorem mechTick_local (d : Nat) (s : State) :
    Ensures (execMechTick d s) (LocalTo (.mechTick d) d s) := by
  refine ensures_onDrive fun dr _ => ?_
  split
  · exact LocalTo.refl.tick.completes _
  · exact ensures_refused _ _

theorem tpiRdPc_local (d : Nat) (s : State) :
    Ensures (execTpiRdPc d s) (LocalTo (.tpiRdPc d) d s) := by
  refine ensures_onTpi fun dr t _ _ => ?_
  dsimp only
  split
  · exact LocalTo.refl.drawn.completes _
  · exact LocalTo.refl.completes _

theorem tpiIrqin_local (d : Nat) (n : Fin 5) (level : Bool) (s : State) :
    Ensures (execTpiIrqin d n level s) (LocalTo (.tpiIrqin d n level) d s) := by
  refine ensures_onTpi fun dr t _ _ => LocalTo.completes ?_ _
  split
  · exact ((LocalTo.refl.mapCtl _).mapCtl _).irqUpdate
  · exact LocalTo.refl.mapCtl _

/-- R79: an operation addressed to drive `d` changes nothing else, unless it can write to the bus. -/
theorem exec_local {i : Instr} {d : Nat} (hd : addressedDrive i = some d)
    (hi : reachesBus i = false) (s : State) : Ensures (exec i s) (LocalTo i d s) := by
  cases i <;> cases hd
  case sysPwroff | viabWrPb => cases hi
  case sysPwron => exact sysPwron_local d s
  case sysMount f bytes len wp => exact sysMount_local d f bytes len wp s
  case sysUnmount => exact sysUnmount_local d s
  case mechTick => exact mechTick_local d s
  case mechCtrl c => exact ensures_onPowered fun _ _ _ => (LocalTo.refl.mechCtrl c).completes _
  case mechRegen =>
    refine ensures_onPowered fun _ _ _ => (LocalTo.refl.mapDrive ?_).completes _
    exact fun _ _ => Drive.regen_img ..
  case mechStep new =>
    refine ensures_onPowered fun _ _ _ => (LocalTo.refl.mapDrive ?_).completes _
    exact fun _ _ => Drive.step_img ..
  case irqUpdate => exact ensures_onPowered fun _ _ _ => LocalTo.refl.irqUpdate.completes _
  case viaWrDdrb c v =>
    cases c with
    | viab => cases hi
    | viad =>
      exact ensures_onVia fun _ _ _ _ _ => (LocalTo.refl.mapCtl _).applyControl.completes _
  case viadWrPb =>
    exact ensures_onVia fun _ _ _ _ _ => (LocalTo.refl.mapCtl _).applyControl.completes _
  case viabRdPb | viadRdPb | viaRdDdrb | viaRdDdra =>
    exact ensures_onVia fun _ _ _ _ _ => LocalTo.refl.completes _
  case viaRdCt =>
    exact ensures_onVia fun _ _ _ _ _ => LocalTo.refl.drawn.completes _
  case viabRdPa | viadRdPa =>
    exact ensures_onVia fun _ _ _ _ _ => (LocalTo.refl.setCa1 _ _).completes _
  case viabWrPa | viadWrPa =>
    exact ensures_onVia fun _ _ _ _ _ => ((LocalTo.refl.mapCtl _).setCa1 _ _).completes _
  case viaWrDdra => exact ensures_onVia fun _ _ _ _ _ => (LocalTo.refl.mapCtl _).completes _
  case viaWrCt | viaOtherirq =>
    exact ensures_onVia fun _ _ _ _ _ => (LocalTo.refl.mapCtl _).irqUpdate.completes _
  case tpiRdPa | tpiRdPb | tpiRdDdra | tpiRdDdrb | tpiRdDdrc | tpiRdCr | tpiWrAir =>
    exact ensures_onTpi fun _ _ _ _ => LocalTo.refl.completes _
  case tpiRdPc => exact tpiRdPc_local d s
  case tpiHostrd => exact ensures_onTpiDrive fun _ _ _ => LocalTo.refl.completes _
  case tpiWrPa | tpiWrPb | tpiWrPc | tpiWrDdra | tpiWrDdrb | tpiWrDdrc | tpiHostwr =>
    exact ensures_onTpi fun _ _ _ _ => (LocalTo.refl.mapCtl _).completes _
  case tpiRdAir | tpiWrCr =>
    exact ensures_onTpi fun _ _ _ _ => (LocalTo.refl.mapCtl _).irqUpdate.completes _
  case tpiIrqin n level => exact tpiIrqin_local d n level s

/-! ### Operations addressed to no drive -/

/-- Neither the bus nor any image has changed. -/
def KeepsBusAndImages (s t : State) : Prop := t.bus = s.bus ∧ t.images = s.images

theorem KeepsBusAndImages.trans {s t u : State} (h : KeepsBusAndImages s t)
    (h' : KeepsBusAndImages t u) : KeepsBusAndImages s u :=
  ⟨h'.1.trans h.1, h'.2.trans h.2⟩

/-- R279: a firing of the retry timer changes interrupt flags of the drive alone. -/
theorem retryDrive_keeps (s : State) (d : Nat) : KeepsBusAndImages s (s.retryDrive d) := by
  rcases retryDrive_cases s d with heq | ⟨dr, es, -, -, heq⟩
  · rw [heq]
    exact ⟨rfl, rfl⟩
  · rw [heq]
    exact ⟨rfl, mapCtl_images ..⟩

theorem irqRetry_keeps (s : State) : Ensures (execIrqRetry s) (KeepsBusAndImages s) := by
  unfold execIrqRetry
  split
  · refine ensures_done (List.foldlRecOn (List.range s.drives.length) State.retryDrive
      (motive := KeepsBusAndImages s) ⟨rfl, rfl⟩ fun t ht d _ => ?_)
    exact ht.trans (retryDrive_keeps t d)
  · exact ensures_refused _ _

theorem busNotify_keeps (q : Nat) (l : Line) (v : Bool) (s : State) :
    Ensures (execBusNotify q l v s) (KeepsBusAndImages s) := by
  unfold execBusNotify
  split
  · exact ensures_done ⟨notify_bus s q l v, notify_images s q l v⟩
  · exact ensures_refused _ _

theorem dskOffset_keeps (table : List Nat) (track sector : Nat) (s : State) :
    Ensures (execDskOffset table track sector s) (KeepsBusAndImages s) := by
  unfold execDskOffset
  split
  · exact ensures_refused _ _
  · exact ensures_done ⟨rfl, rfl⟩

theorem parWrdata_keeps (v : Byte) (s : State) :
    Ensures (execParWrdata v s) (KeepsBusAndImages s) := by
  refine ensures_done ?_
  split <;> exact ⟨rfl, rfl⟩

theorem parWrack_keeps (v : Bool) (s : State) :
    Ensures (execParWrack v s) (KeepsBusAndImages s) := by
  refine ensures_done ?_
  split <;> exact ⟨rfl, rfl⟩

/-- An operation addressed to no drive changes neither, unless it can write to the bus. -/
theorem exec_keeps_of_unaddressed {i : Instr} (hd : addressedDrive i = none)
    (hi : reachesBus i = false) (s : State) : Ensures (exec i s) (KeepsBusAndImages s) := by
  cases i <;> cases hd
  case sysReset | busSet => cases hi
  case irqRetry => exact irqRetry_keeps s
  case busNotify q l v => exact busNotify_keeps q l v s
  case dskOffset table track sector => exact dskOffset_keeps table track sector s
  case parWrdata v => exact parWrdata_keeps v s
  case parWrack v => exact parWrack_keeps v s
  case busGet | parEnable | parRddata | parRdack | gcrEnc4 | gcrDec5 | gcrEncsec | gcrDechdr
      | gcrDecdata | dskBuild =>
    exact ensures_done ⟨rfl, rfl⟩

/-- R161: an operation that cannot write to the bus leaves it alone. -/
theorem exec_bus {i : Instr} (hi : reachesBus i = false) {s t : State} (h : exec i s = .next t) :
    t.bus = s.bus := by
  cases hd : addressedDrive i with
  | none => exact (exec_keeps_of_unaddressed hd hi s t h).1
  | some d => exact (exec_local hd hi s t h).bus

/-! ### Only a mount or an unmount changes an image (R63) -/

theorem sysReset_images (s : State) : Ensures (execSysReset s) fun t => t.images = s.images := by
  refine ensures_done ?_
  have hreset : s.resetAll.images = s.images := by
    simp [State.images, resetAll_drives, Function.comp_def]
  exact hreset

theorem switchOff_local (s : State) (d : Nat) : LocalTo (.sysPwroff d) d s (s.switchOff d) :=
  LocalTo.refl.chipReset.mapDrive fun _ _ => rfl

theorem sysPwroff_images (d : Nat) (s : State) :
    Ensures (execSysPwroff d s) fun t => t.images = s.images := by
  refine ensures_onPowered fun _ _ _ => ensures_done ?_
  have hrelease : ((s.switchOff d).release (1 + d)).images = s.images := by
    simp [State.release, (switchOff_local s d).images rfl]
  exact hrelease

theorem exec_images_of_reachesBus {i : Instr} (hi : reachesBus i = true) (s : State) :
    Ensures (exec i s) fun t => t.images = s.images := by
  rcases reachesBus_cases hi with rfl | ⟨d, rfl⟩ | ⟨p, l, v, rfl⟩ | ⟨d, v, rfl⟩ | ⟨d, v, rfl⟩
  · exact sysReset_images s
  · exact sysPwroff_images d s
  · exact ensures_onParticipant fun _ => ensures_done (busSet_images s p l v)
  · exact ensures_onVia fun _ _ _ _ _ => ensures_done
      ((applyBusOutputs_images _ d).trans (mapCtl_images s d _))
  · exact ensures_onVia fun _ _ _ _ _ => ensures_done
      ((applyBusOutputs_images _ d).trans (mapCtl_images s d _))

/-- Settles O11: an operation that cannot write to the bus changes one drive or none, and each of the
others is taken by itself. -/
theorem imagesAreReadOnly : Obligations.ImagesAreReadOnly := by
  intro i s t hi h
  refine sameImages_of_images_eq ?_
  cases hbus : reachesBus i with
  | true => exact exec_images_of_reachesBus hbus s t h
  | false =>
    cases hd : addressedDrive i with
    | none => exact (exec_keeps_of_unaddressed hd hbus s t h).2
    | some d => exact (exec_local hd hbus s t h).images hi

end Sys2Proof.Machine
end

section
/-! Each agent keeps to what its wiring reaches (R8, R79, R286): what a line edge makes of a drive,
which latches an operation writes, and whose moves the presented operations are. -/

namespace Sys2Proof.Machine

set_option Elab.async false

/-! ### What `IRQ.UPDATE` and a notification make of a drive (R277, R165, R221) -/

theorem latchIrq_sameRegs (c : ViaChip) (new other : Bool) : c.SameRegs (c.latchIrq new other) := by
  unfold ViaChip.latchIrq
  split <;> exact ⟨rfl, rfl, rfl, rfl, rfl, rfl, rfl⟩

/-- R277: the retry flag of one chip. -/
theorem latchIrq_irqRetry (c : ViaChip) (new other : Bool) :
    (c.latchIrq new other).irqRetry = retryAfter c.chipIrq new c.irqRetry other := by
  unfold ViaChip.latchIrq retryAfter
  split <;> rfl

/-- R277: what `IRQ.UPDATE` makes of a VIA pair. -/
theorem updateIrq_via (P : Params) (b dd : ViaChip) : ∃ b' dd',
    (Controller.via b dd).updateIrq P = .via b' dd' ∧ b.SameRegs b' ∧ dd.SameRegs dd' ∧
    b'.irqRetry = retryAfter b.chipIrq b'.chipIrq b.irqRetry dd.chipIrq ∧
    dd'.irqRetry = retryAfter dd.chipIrq dd'.chipIrq dd.irqRetry b'.chipIrq := by
  refine ⟨_, _, rfl, latchIrq_sameRegs .., latchIrq_sameRegs .., ?_, ?_⟩
  · rw [latchIrq_irqRetry, latch_chipIrq]
  · rw [latchIrq_irqRetry, latch_chipIrq, latch_chipIrq]

theorem activeAtn_iff (P : Params) (b : ViaChip) (v : Bool) :
    activeAtn P b v ↔ atnEdgeActive P b v = true := by
  cases hinv : P.busInvert <;> simp [activeAtn, atnEdgeActive, portLevel, hinv]

/-- R165, R221: a notified drive is one the edge reached. -/
theorem notified_edgeReaches (P : Params) (l : Line) (v : Bool) (dr : Drive) :
    EdgeReaches P l v dr (Drive.notified P l v dr) := by
  cases hctl : dr.ctl with
  | tpi c => simp [EdgeReaches, Drive.notified, hctl]
  | via b dd =>
    simp only [EdgeReaches, Drive.notified, hctl, activeAtn_iff]
    refine ⟨fun hquiet => if_neg hquiet, fun hedge => ?_⟩
    rw [if_pos hedge]
    obtain ⟨b', dd', hchips, hb, hdd, hbRetry, hddRetry⟩ :=
      updateIrq_via P { b with ca1Flag := true } dd
    have hctl' : (dr.setCa1 P .viab true).ctl = .via b' dd' := by
      rw [← hchips]
      simp [Drive.setCa1, hctl, Controller.mapVia]
    exact ⟨b', dd', hctl', ⟨rfl, rfl, rfl, rfl, rfl, rfl⟩, hb, hdd, updateIrq_current .., rfl,
      hbRetry, hddRetry⟩

/-! ### `BUS.SET` on a line that is not ATN (R162, R221) -/

theorem notifyAll_drives_of_ne_atn {l : Line} (hl : l ≠ .atn) (s : State) (v : Bool) :
    (s.notifyAll l v).drives = s.drives := by
  have hquiet : Drive.notified s.params l v = id := funext (notified_of_ne_atn hl s.params v)
  apply List.ext_getElem?
  intro d
  simp [State.notifyAll, foldl_notify_drives, hquiet]

theorem busSet_drives_of_ne_atn {l : Line} (hl : l ≠ .atn) (s : State) (p : Nat) (v : Bool) :
    (s.busSet p l v).drives = s.drives := by
  rcases busSet_cases s p l v with ⟨-, heq⟩ | ⟨-, heq⟩
  · rw [heq]
    rfl
  · rw [heq, notifyAll_drives_of_ne_atn hl]
    rfl

theorem busSet_atn_of_ne_atn {l : Line} (hl : l ≠ .atn) (s : State) (p : Nat) (v : Bool) :
    (s.busSet p l v).bus.line.atn = s.bus.line.atn := by
  rw [busSet_line]
  exact Lines.get_set_ne _ _ hl.symm

theorem Lines.set_atn_of_ne_atn {l : Line} (hl : l ≠ .atn) (x : Lines) (v : Bool) :
    (x.set l v).atn = x.atn :=
  Lines.get_set_ne x v hl.symm

/-! ### The bus chip's outputs (R216) -/

/-- Everything the outputs of drive `d`'s bus chip can do: write DATA and CLOCK of its own latches. -/
theorem applyBusOutputs_cases (s : State) (d : Nat) :
    s.applyBusOutputs d = s ∨ ∃ v w,
      s.applyBusOutputs d = (s.busSet (1 + d) .data v).busSet (1 + d) .clock w := by
  unfold State.applyBusOutputs
  split
  · exact .inl rfl
  · split
    · exact .inl rfl
    · exact .inr ⟨_, _, rfl⟩

theorem applyBusOutputs_drives (s : State) (d : Nat) : (s.applyBusOutputs d).drives = s.drives := by
  rcases applyBusOutputs_cases s d with heq | ⟨v, w, heq⟩
  · rw [heq]
  · simp [heq, busSet_drives_of_ne_atn]

theorem applyBusOutputs_atn (s : State) (d : Nat) :
    (s.applyBusOutputs d).bus.line.atn = s.bus.line.atn := by
  rcases applyBusOutputs_cases s d with heq | ⟨v, w, heq⟩
  · rw [heq]
  · simp [heq, busSet_atn_of_ne_atn, -busSet_line]

theorem applyBusOutputs_latches (s : State) (d : Nat) :
    ∃ f : Lines → Lines, (∀ x, (f x).atn = x.atn) ∧
      (s.applyBusOutputs d).bus.latches = s.bus.latches.modify (d + 1) f := by
  rcases applyBusOutputs_cases s d with heq | ⟨v, w, heq⟩
  · exact ⟨id, fun _ => rfl, by simp [heq]⟩
  · refine ⟨fun x => (x.set .data v).set .clock w, fun x => ?_, ?_⟩
    · simp [Lines.set_atn_of_ne_atn]
    · simp [heq, List.modify_modify_eq, Nat.add_comm, Function.comp_def]

/-! ### An operation reaches other drives through an edge of ATN alone (R79) -/

/-- Every drive but `d` is as it was, or as an edge of ATN left it. -/
def ReachesByAtn (d : Nat) (s t : State) : Prop :=
  ∀ (e : Nat) (dr : Drive), e ≠ d → s.drives[e]? = some dr → ∃ dr', t.drives[e]? = some dr' ∧
    (t.bus.line.atn = s.bus.line.atn → dr' = dr) ∧
    (t.bus.line.atn ≠ s.bus.line.atn → EdgeReaches s.params .atn t.bus.line.atn dr dr')

theorem ReachesByAtn.completes {d : Nat} {s t : State} (h : ReachesByAtn d s t) (r : Result) :
    Ensures (done t r) (ReachesByAtn d s) :=
  ensures_done h

theorem reachesByAtn_of_sameOthers {d : Nat} {s t : State} (hothers : SameOtherDrives d s t)
    (hatn : t.bus.line.atn = s.bus.line.atn) : ReachesByAtn d s t :=
  fun e dr he hdr => ⟨dr, (hothers.2 e he).trans hdr, fun _ => rfl, fun hne => absurd hatn hne⟩

theorem LocalTo.reachesByAtn {i : Instr} {d : Nat} {s t : State} (h : LocalTo i d s t) :
    ReachesByAtn d s t :=
  reachesByAtn_of_sameOthers h.others (congrArg (·.line.atn) h.bus)

/-- R216, R228: a bus chip drives DATA and CLOCK, which no drive hears. -/
theorem LocalTo.applyBusOutputs_reachesByAtn {i : Instr} {d : Nat} {s t : State}
    (h : LocalTo i d s t) : ReachesByAtn d s (t.applyBusOutputs d) := by
  refine reachesByAtn_of_sameOthers ?_ ?_
  · simpa only [SameOtherDrives, applyBusOutputs_drives] using h.others
  · rw [applyBusOutputs_atn, h.bus]

/-- R161: what `BUS.SET` of ATN makes of a drive. -/
theorem busSet_atn_reaches {s : State} (hlen : s.bus.latches.length = s.drives.length + 1) (p : Nat)
    (v : Bool) {e : Nat} {dr : Drive} (hdr : s.drives[e]? = some dr) :
    ∃ dr', (s.busSet p .atn v).drives[e]? = some dr' ∧
      ((s.busSet p .atn v).bus.line.atn = s.bus.line.atn → dr' = dr) ∧
      ((s.busSet p .atn v).bus.line.atn ≠ s.bus.line.atn →
        EdgeReaches s.params .atn (s.busSet p .atn v).bus.line.atn dr dr') := by
  have hatn : (s.busSet p .atn v).bus.line.atn = (s.setLatch p .atn v).bus.wiredAnd .atn := by
    rw [busSet_line]
    rfl
  rw [busSet_drives s p .atn v hlen, hatn]
  split
  case isTrue hsame => exact ⟨dr, hdr, fun _ => rfl, fun hne => absurd hsame hne⟩
  case isFalse hedge =>
    exact ⟨_, by simp [hdr], fun hsame => absurd hsame hedge, fun _ => notified_edgeReaches ..⟩

/-- R303: the last two of the three releases are heard by no drive. -/
theorem release_quiet (s : State) (p : Nat) :
    (s.release p).drives = (s.busSet p .atn true).drives ∧
    (s.release p).bus.line.atn = (s.busSet p .atn true).bus.line.atn := by
  constructor
  · simp [State.release, busSet_drives_of_ne_atn]
  · simp [State.release, busSet_atn_of_ne_atn, -busSet_line]

theorem sysPwroff_reachesByAtn {s : State} (hs : s.ShapeOk) (d : Nat) :
    Ensures (execSysPwroff d s) (ReachesByAtn d s) := by
  refine ensures_onPowered fun _ _ _ => ensures_done ?_
  have hrelease : ReachesByAtn d s ((s.switchOff d).release (1 + d)) := by
    intro e dr he hdr
    obtain ⟨hbus, ⟨hlen, hothers⟩, -⟩ := switchOff_local s d
    obtain ⟨-, -, hparts⟩ := hs
    have hparams : (s.switchOff d).params = s.params := by simp [State.switchOff, State.chipReset]
    have hreach := busSet_atn_reaches (by rw [hbus, hlen, hparts]) (1 + d) true
      ((hothers e he).trans hdr)
    obtain ⟨hdrives, hatn⟩ := release_quiet (s.switchOff d) (1 + d)
    rw [hdrives, hatn]
    rwa [hbus, hparams] at hreach
  exact hrelease

/-- R79: an operation addressed to drive `d` reaches the others through an edge of ATN alone. -/
theorem exec_reachesByAtn {i : Instr} {d : Nat} (hd : addressedDrive i = some d) {s : State}
    (hs : s.ShapeOk) : Ensures (exec i s) (ReachesByAtn d s) := by
  cases hi : reachesBus i with
  | false => exact fun t h => (exec_local hd hi s t h).reachesByAtn
  | true =>
    rcases reachesBus_cases hi with rfl | ⟨d, rfl⟩ | ⟨p, l, v, rfl⟩ | ⟨d, v, rfl⟩ | ⟨d, v, rfl⟩ <;>
      cases hd
    · exact sysPwroff_reachesByAtn hs d
    · exact ensures_onVia fun _ _ _ _ _ =>
        (LocalTo.refl.mapCtl (i := .viabWrPb d v) _).applyBusOutputs_reachesByAtn.completes _
    · exact ensures_onVia fun _ _ _ _ _ =>
        (LocalTo.refl.mapCtl (i := .viaWrDdrb d .viab v) _).applyBusOutputs_reachesByAtn.completes _

/-! ### Whose latches a move changes (R8, R216, R286) -/

/-- What a move `i` of agent `a` may do to the latches: the host writes the host's; drive `d`'s CPU
writes DATA and CLOCK of drive `d`'s, through port B or DDRB of its bus chip. -/
structure LatchesMoved (a : Agent) (i : Instr) (s t : State) : Prop where
  host : t.bus.latches[0]? ≠ s.bus.latches[0]? → a = .host
  atn : ∀ d : Nat, (t.bus.latches[d + 1]?).map Lines.atn = (s.bus.latches[d + 1]?).map Lines.atn
  drive : ∀ d : Nat, t.bus.latches[d + 1]? ≠ s.bus.latches[d + 1]? → a = .driveCpu d ∧
    s.hasVia d = true ∧ ∃ v, i = .viabWrPb d v ∨ i = .viaWrDdrb d .viab v

theorem LatchesMoved.completes {a : Agent} {i : Instr} {s t : State} (h : LatchesMoved a i s t)
    (r : Result) : Ensures (done t r) (LatchesMoved a i s) := by
  obtain ⟨hhost, hatn, hdrive⟩ := h
  exact ensures_done ⟨hhost, hatn, hdrive⟩

theorem latchesMoved_of_bus_eq {a : Agent} {i : Instr} {s t : State} (h : t.bus = s.bus) :
    LatchesMoved a i s t :=
  ⟨fun hne => absurd (by rw [h]) hne, fun d => by rw [h], fun d hne => absurd (by rw [h]) hne⟩

/-- R161: `BUS.SET` of the host. -/
theorem latchesMoved_busSet {a : Agent} (ha : a = .host) {p : Nat} (hp : p = 0) (i : Instr)
    (s : State) (l : Line) (v : Bool) : LatchesMoved a i s (s.busSet p l v) := by
  have hsame (d : Nat) : (s.busSet p l v).bus.latches[d + 1]? = s.bus.latches[d + 1]? := by
    simp [hp]
  exact ⟨fun _ => ha, fun d => by rw [hsame], fun d hne => absurd (hsame d) hne⟩

/-- R216, R228: a write of port B or DDRB of drive `d`'s bus chip by drive `d`'s CPU. -/
theorem latchesMoved_applyBusOutputs {a : Agent} {i : Instr} {s t : State} {d : Nat} {v : Byte}
    (ha : s.viaCpu a d = true) (hi : i = .viabWrPb d v ∨ i = .viaWrDdrb d .viab v)
    (hbus : t.bus = s.bus) : LatchesMoved a i s (t.applyBusOutputs d) := by
  obtain ⟨hcpu, hvia⟩ := viaCpu_iff.1 ha
  obtain ⟨f, hf, hlatches⟩ := applyBusOutputs_latches t d
  rw [hbus] at hlatches
  refine ⟨fun hne => ?_, fun e => ?_, fun e hne => ?_⟩
  · simp [hlatches] at hne
  · rw [hlatches, List.getElem?_modify]
    split
    · cases s.bus.latches[e + 1]? <;> simp [hf]
    · simp
  · obtain rfl : d = e := by
      by_contra hde
      simp [hlatches, hde] at hne
    exact ⟨hcpu, hvia, v, hi⟩

theorem exec_latchesMoved {a : Agent} {i : Instr} {s : State} (ha : s.performs a i = true)
    (hinvoked : a ≠ .invoked) (hfrontend : a ≠ .frontend) :
    Ensures (exec i s) (LatchesMoved a i s) := by
  cases hi : reachesBus i with
  | false => exact fun t h => latchesMoved_of_bus_eq (exec_bus hi h)
  | true =>
    rcases reachesBus_cases hi with rfl | ⟨d, rfl⟩ | ⟨p, l, v, rfl⟩ | ⟨d, v, rfl⟩ | ⟨d, v, rfl⟩
    · exact absurd (of_decide_eq_true ha) hfrontend
    · exact absurd (of_decide_eq_true ha) hfrontend
    · have hagent : a = if p = 0 then .host else .invoked := of_decide_eq_true ha
      split at hagent
      case isTrue hp =>
        exact ensures_onParticipant fun _ => (latchesMoved_busSet hagent hp _ s l v).completes _
      case isFalse => exact absurd hagent hinvoked
    · exact ensures_onVia fun _ _ _ _ _ =>
        (latchesMoved_applyBusOutputs ha (.inl rfl) (State.mapCtl_bus ..)).completes _
    · exact ensures_onVia fun _ _ _ _ _ =>
        (latchesMoved_applyBusOutputs ha (.inr rfl) (State.mapCtl_bus ..)).completes _

/-! ### The domains of the agents (R286) -/

theorem performs_viaRead (s : State) (a : Agent) (d : Nat) (c : ViaId) (x : ViaReg) :
    s.performs a (viaRead d c x) = s.viaCpu a d := by
  cases c <;> cases x <;> rfl

theorem performs_viaWrite (s : State) (a : Agent) (d : Nat) (v : Byte) (c : ViaId)
    (x : ViaReg) : s.performs a (viaWrite d v c x) = s.viaCpu a d := by
  cases c <;> cases x <;> rfl

theorem performs_tpiRead (s : State) (a : Agent) (d off : Nat) :
    s.performs a (tpiRead d off) = s.tpiCpu a d := by
  unfold tpiRead
  split <;> rfl

theorem performs_tpiWrite (s : State) (a : Agent) (d off : Nat) (v : Byte) :
    s.performs a (tpiWrite d off v) = s.tpiCpu a d := by
  unfold tpiWrite
  split <;> rfl

/-- A register access to drive `d`, of whatever chip, is a move of drive `d`'s CPU alone. -/
theorem driveCpu_of_regRead {s : State} {a : Agent} {o : ViaOffsets} {d : Nat} {c : ChipId}
    {off : Nat} (h : s.performs a (regRead o d c off) = true) : a = .driveCpu d := by
  cases c with
  | viab | viad => exact (viaCpu_iff.1 ((performs_viaRead ..).symm.trans h)).1
  | tpi => exact (tpiCpu_iff.1 ((performs_tpiRead ..).symm.trans h)).1

theorem driveCpu_of_regWrite {s : State} {a : Agent} {o : ViaOffsets} {d : Nat} {c : ChipId}
    {off : Nat} {v : Byte} (h : s.performs a (regWrite o d c off v) = true) : a = .driveCpu d := by
  cases c with
  | viab | viad => exact (viaCpu_iff.1 ((performs_viaWrite ..).symm.trans h)).1
  | tpi => exact (tpiCpu_iff.1 ((performs_tpiWrite ..).symm.trans h)).1

/-- The variants of the drives: is each the VIA pair? -/
def State.variants (s : State) : List Bool := s.drives.map fun dr => dr.ctl.isVia

theorem hasVia_eq (s : State) (d : Nat) : s.hasVia d = (s.variants[d]?).getD false := by
  cases hdr : s.drives[d]? with
  | none => simp [State.hasVia, State.variants, hdr]
  | some dr =>
    cases hctl : dr.ctl <;> simp [State.hasVia, State.variants, Controller.isVia, hdr, hctl]

theorem hasTpi_eq (s : State) (d : Nat) : s.hasTpi d = ((s.variants[d]?).map not).getD false := by
  cases hdr : s.drives[d]? with
  | none => simp [State.hasTpi, State.variants, hdr]
  | some dr =>
    cases hctl : dr.ctl <;> simp [State.hasTpi, State.variants, Controller.isVia, hdr, hctl]

theorem mapDrive_variants {g : DriveTraits → DriveTraits} (hg : ∀ y, (g y).isVia = y.isVia)
    (x : Traits) (d : Nat) :
    (x.mapDrive d g).drives.map DriveTraits.isVia = x.drives.map DriveTraits.isVia := by
  simp [Traits.mapDrive, map_modify (g := id) hg]

theorem traits_after_variants (x : Traits) (i : Instr) :
    (x.after i).drives.map DriveTraits.isVia = x.drives.map DriveTraits.isVia := by
  cases i with
  | sysPwron d | sysPwroff d | sysMount d | sysUnmount d =>
    refine mapDrive_variants ?_ x d
    exact fun _ => rfl
  | _ => rfl

/-- R3: no operation changes the variant of a drive. -/
theorem exec_variants {i : Instr} {s t : State} (h : exec i s = .next t) :
    t.variants = s.variants := by
  have hvia := traits_after_variants s.traits i
  rw [← exec_traits i s t h] at hvia
  simpa [State.traits, State.variants, Drive.traits, Function.comp_def] using hvia

/-- R286: no operation changes whose move an operation is. -/
theorem exec_performs {i : Instr} {s t : State} (h : exec i s = .next t) (a : Agent) (j : Instr) :
    t.performs a j = s.performs a j := by
  have hvariants := exec_variants h
  refine performs_congr ?_ (fun d => ?_) (fun d => ?_) a j
  · simpa [State.variants] using congrArg List.length hvariants
  · rw [hasVia_eq, hasVia_eq, hvariants]
  · rw [hasTpi_eq, hasTpi_eq, hvariants]

/-- A step that is taken performs the operation the first request names, on the rest. -/
theorem step_next_cons {s t : State} (h : step s = .next t) : ∃ r rest i,
    s.requests = r :: rest ∧ decode r = .ok i ∧ exec i (s.withRequests rest) = .next t := by
  unfold step at h
  split at h
  · cases h
  · rename_i r rest hr
    split at h
    · cases h
    · cases h
    · exact ⟨r, rest, _, hr, ‹_›, (onAgent_next h).1⟩

theorem step_wired {s t : State} (hs : s.Wired) (h : step s = .next t) : t.Wired := by
  obtain ⟨r, rest, i, hrequests, -, hexec⟩ := step_next_cons h
  have hrest : t.requests = rest := by
    obtain ⟨-, hkept, -⟩ := whatIsFixedForLife i _ t hexec
    exact hkept
  intro q hq j hj
  rw [exec_performs hexec]
  exact hs q (by rw [hrequests, ← hrest]; exact .tail _ hq) j hj

/-- Settles O13: an addressed operation reaches other drives as `ReachesByAtn` says, register accesses
are `driveCpu_of_regRead` and `driveCpu_of_regWrite`, a move writes latches as `LatchesMoved` says, and
no operation changes the domains (`exec_performs`). -/
theorem drivesAreIsolated : Obligations.DrivesAreIsolated := by
  refine ⟨fun i s t d e dr hs h hd => exec_reachesByAtn hd hs t h e dr,
    fun s a o d c off l v x => ⟨driveCpu_of_regRead, driveCpu_of_regWrite, of_decide_eq_true⟩,
    fun s t a i ha hinvoked hfrontend h => ?_, fun s t => step_wired⟩
  obtain ⟨hhost, hatn, hdrive⟩ := exec_latchesMoved ha hinvoked hfrontend t h
  exact ⟨hhost, fun d => ⟨hatn d, hdrive d⟩⟩

end Sys2Proof.Machine
end

section
/-! The decoder reads back what the encoder writes (R90 to R93): each operand's encoding is inverted
by the reader of that operand, and the tags then decode by computation. -/

namespace Sys2Proof

set_option Elab.async false

/-! ### The operands (R90, R93, R107, R256) -/

@[simp] theorem lineOfNumber_numberOfLine (l : Line) : lineOfNumber (numberOfLine l) = some l := by
  cases l <;> rfl

@[simp] theorem irqInputOfNumber_val (n : Fin 5) : irqInputOfNumber n.val = some n := by
  simp [irqInputOfNumber]

/-- An operand of the length the row gives it is read whole (R93). -/
theorem takeBytes_of_length {n : Nat} {l : List Byte} (h : l.length = n) : takeBytes n l = l :=
  List.take_left' h

/-- A stepper phase is carried in the low two bits of the byte operand (R93). -/
@[simp] theorem extractPhase_setWidth (new : Bits2) : (new.setWidth 8).extractLsb' 0 2 = new := by
  ext i hi
  simpa [show i < 8 by omega] using BitVec.getLsbD_eq_getElem hi

/-! ### The tags (R91 to R93) -/

/-- R61: what stands at each offset of a VIA-style window, as the tags of R91 assume it. -/
theorem viaRegAt_default_each :
    viaRegAt defaultViaOffsets 0 = .pb ∧ viaRegAt defaultViaOffsets 1 = .pa ∧
    viaRegAt defaultViaOffsets 2 = .ddrb ∧ viaRegAt defaultViaOffsets 3 = .ddra ∧
    viaRegAt defaultViaOffsets 4 = .ct 0 ∧ viaRegAt defaultViaOffsets 5 = .ct 1 ∧
    viaRegAt defaultViaOffsets 6 = .ct 2 ∧ viaRegAt defaultViaOffsets 7 = .ct 3 := by
  simpa [List.range_succ] using viaRegAt_default

theorem decodeTag_encode {i : Instr} (h : i.wf = true) : decodeTag (encode i) = some (some i) := by
  cases i with
  -- REG: the chip and the register are the tag's own bits
  | viabRdPb d | viabRdPa d | viadRdPb d | viadRdPa d
  | viabWrPb d v | viabWrPa d v | viadWrPb d v | viadWrPa d v =>
    simp [encode, decodeTag, decodeReg, chipOfBits, regRead, regWrite, viaRegAt_default_each,
      viaRead, viaWrite]
  | viaRdDdrb d c | viaRdDdra d c | viaWrDdrb d c v | viaWrDdra d c v =>
    cases c <;> simp [encode, viaBits, decodeTag, decodeReg, chipOfBits, regRead, regWrite,
      viaRegAt_default_each, viaRead, viaWrite]
  | viaRdCt d c k | viaWrCt d c k v =>
    cases c <;> match k with
      | 0 | 1 | 2 | 3 =>
        simp [encode, viaBits, ctBits, decodeTag, decodeReg, chipOfBits, regRead, regWrite,
          viaRegAt_default_each, viaRead, viaWrite]
  | tpiRdPa d | tpiRdPb d | tpiRdPc d | tpiRdDdra d | tpiRdDdrb d | tpiRdDdrc d | tpiRdCr d
  | tpiRdAir d | tpiWrPa d v | tpiWrPb d v | tpiWrPc d v | tpiWrDdra d v | tpiWrDdrb d v
  | tpiWrDdrc d v | tpiWrCr d v | tpiWrAir d v =>
    simp [encode, decodeTag, decodeReg, chipOfBits, regRead, regWrite, tpiRead, tpiWrite]
  -- EVT
  | sysReset | sysPwron d | sysPwroff d | sysMount d f bytes len wp | sysUnmount d | mechTick d
  | mechCtrl d c | irqRetry | busSet p l v | busGet l | parEnable v | parWrdata v | parRddata
  | parWrack v | parRdack | tpiIrqin d n level | tpiHostwr d v | tpiHostrd d
  | viaOtherirq d c level =>
    simp [encode, decodeTag, decodeEvt]
  -- FUN: a byte operand has the length its row gives it
  | gcrDec5 g | gcrDechdr g | gcrDecdata g | gcrEncsec t s i1 i2 data =>
    have hlength := takeBytes_of_length (eq_of_beq h)
    simp [encode, decodeTag, decodeFun, byteAt, hlength]
  | gcrEnc4 a b c e | dskBuild f | dskOffset table t s | mechRegen d | mechStep d new
  | busNotify q l v | irqUpdate d =>
    simp [encode, decodeTag, decodeFun, byteAt]

theorem decode_of_decodeTag {r : Request} {i : Instr} (hr : decodeTag r = some (some i))
    (hi : i.wf = true) : decode r = .ok i := by
  simp [decode, hr, hi]

/-- Settles O2: the tag of an encoded operation names it (`decodeTag_encode`), and its operands are in
range by hypothesis. -/
theorem decodeOfEncode : Obligations.DecodeOfEncode :=
  fun _ hi => decode_of_decodeTag (decodeTag_encode hi) hi

/-- Settles O1: each written-out tag is the encoding of the operation the tables give it. -/
theorem sampleTagsDecode : Obligations.SampleTagsDecode :=
  ⟨decodeOfEncode (.viabRdPb 1) rfl, decodeOfEncode (.viadWrPa 0 0x5A) rfl,
    decodeOfEncode (.viaRdDdrb 0 .viad) rfl, decodeOfEncode (.viaWrCt 0 .viad 2 0x77) rfl,
    decodeOfEncode (.tpiRdAir 0) rfl, decodeOfEncode (.tpiWrDdrc 0 0x1F) rfl,
    decodeOfEncode .sysReset rfl, decodeOfEncode (.mechTick 1) rfl,
    decodeOfEncode (.busSet 2 .clock true) rfl, decodeOfEncode (.gcrEnc4 1 2 3 4) rfl,
    decodeOfEncode (.mechStep 0 0b11) rfl, decodeOfEncode (.irqUpdate 1) rfl⟩

end Sys2Proof
end

section
/-! Which tags are reserved (R94), and that an operation of a chip the drive lacks is refused when it
is performed (R94, entry 19). -/

namespace Sys2Proof

set_option Elab.async false

/-! ### The reserved tags, format by format -/

theorem chipOfBits_eq_none_iff (n : Nat) : chipOfBits n = none ↔ 3 ≤ n := by
  unfold chipOfBits
  split
  case h_4 =>
    simp only [imp_false, true_iff] at *
    omega
  all_goals simp

/-- R94 of format REG: `cc = 11`. -/
theorem decodeReg_eq_none_iff (r : Request) :
    decodeReg r = none ↔ 3 ≤ (r.tag.extractLsb' 4 2).toNat := by
  rw [decodeReg, Option.map_eq_none_iff, chipOfBits_eq_none_iff]

/-- R94 of format EVT: the numbers from `0x13` on. -/
theorem decodeEvt_eq_none_iff (r : Request) :
    decodeEvt r = none ↔ 0x13 ≤ (r.tag.extractLsb' 0 6).toNat := by
  unfold decodeEvt
  generalize (r.tag.extractLsb' 0 6).toNat = n
  split
  case h_20 =>
    simp only [imp_false, true_iff] at *
    omega
  all_goals simp

/-- R94 of format FUN: the numbers from `0x0B` on. -/
theorem decodeFun_eq_none_iff (r : Request) :
    decodeFun r = none ↔ 0x0B ≤ (r.tag.extractLsb' 0 6).toNat := by
  unfold decodeFun
  generalize (r.tag.extractLsb' 0 6).toNat = n
  split
  case h_12 =>
    simp only [imp_false, true_iff] at *
    omega
  all_goals simp

/-- R94: the reserved tags. -/
theorem decodeTag_eq_none_iff (r : Request) : decodeTag r = none ↔
    (0x30 ≤ r.tag.toNat ∧ r.tag.toNat ≤ 0x3F) ∨ (0x40 ≤ r.tag.toNat ∧ r.tag.toNat ≤ 0x7F) ∨
      (0x93 ≤ r.tag.toNat ∧ r.tag.toNat ≤ 0xBF) ∨ (0xCB ≤ r.tag.toNat ∧ r.tag.toNat ≤ 0xFF) := by
  have hlt := r.tag.isLt
  have hformat : (r.tag.extractLsb' 6 2).toNat = r.tag.toNat / 64 := by
    simp [Nat.shiftRight_eq_div_pow]
    omega
  have hchip : (r.tag.extractLsb' 4 2).toNat = r.tag.toNat / 16 % 4 := by
    simp [Nat.shiftRight_eq_div_pow]
  have hnumber : (r.tag.extractLsb' 0 6).toNat = r.tag.toNat % 64 := by simp
  unfold decodeTag
  split
  · rw [Option.map_eq_none_iff, decodeReg_eq_none_iff]
    omega
  · rw [decodeEvt_eq_none_iff]
    omega
  · rw [decodeFun_eq_none_iff]
    omega
  · simp only [imp_false, true_iff] at *
    omega

/-- A request is refused as reserved exactly when its tag names no operation. -/
theorem decode_eq_reservedTag_iff (r : Request) :
    decode r = .error (.reservedTag r.tag) ↔ decodeTag r = none := by
  unfold decode
  split
  · simp [*]
  · simp [*]
  · split <;> simp [*]

namespace Machine

theorem step_reservedTag {s : State} {r : Request} {rest : List Request} {tag : Byte}
    (hr : s.requests = r :: rest) (htag : decode r = .error (.reservedTag tag)) :
    step s = .refused (.reservedTag tag) := by
  simp [step, hr, htag]

/-! ### Register accesses of a chip the drive lacks -/

theorem onTpi_of_via {s : State} {d : Nat} {dr : Drive} {b dd : ViaChip}
    (hdr : s.drives[d]? = some dr) (hctl : dr.ctl = .via b dd) (k : Drive → TpiChip → Out) :
    onTpi s d k = .refused (.noSuchChip d) := by
  simp [onTpi, onTpiDrive, onDrive_of_some hdr, hctl]

theorem onVia_of_tpi {s : State} {d : Nat} {dr : Drive} {t : TpiChip}
    (hdr : s.drives[d]? = some dr) (hctl : dr.ctl = .tpi t) (k : Drive → ViaChip → ViaChip → Out) :
    onVia s d k = .refused (.noSuchChip d) := by
  simp [onVia, onDrive_of_some hdr, hctl]

theorem exec_tpiRead (d off : Nat) (s : State) : ∃ k, exec (tpiRead d off) s = onTpi s d k := by
  unfold tpiRead
  split <;> exact ⟨_, rfl⟩

theorem exec_tpiWrite (d off : Nat) (v : Byte) (s : State) :
    ∃ k, exec (tpiWrite d off v) s = onTpi s d k := by
  unfold tpiWrite
  split <;> exact ⟨_, rfl⟩

theorem exec_viaRead (d : Nat) (c : ViaId) (x : ViaReg) (s : State) :
    ∃ k, exec (viaRead d c x) s = onVia s d k := by
  cases c <;> cases x <;> exact ⟨_, rfl⟩

theorem exec_viaWrite (d : Nat) (v : Byte) (c : ViaId) (x : ViaReg) (s : State) :
    ∃ k, exec (viaWrite d v c x) s = onVia s d k := by
  cases c <;> cases x <;> exact ⟨_, rfl⟩

/-- R94: a TPI access of a VIA drive, whatever the offset. -/
theorem exec_tpiAccess_of_via {s : State} {d : Nat} {dr : Drive} {b dd : ViaChip}
    (hdr : s.drives[d]? = some dr) (hctl : dr.ctl = .via b dd) (off : Nat) (v : Byte) :
    exec (tpiRead d off) s = .refused (.noSuchChip d) ∧
    exec (tpiWrite d off v) s = .refused (.noSuchChip d) := by
  obtain ⟨_, hread⟩ := exec_tpiRead d off s
  obtain ⟨_, hwrite⟩ := exec_tpiWrite d off v s
  exact ⟨hread.trans (onTpi_of_via hdr hctl _), hwrite.trans (onTpi_of_via hdr hctl _)⟩

/-- R94: a VIA access of a TPI drive, whatever the chip and the register. -/
theorem exec_viaAccess_of_tpi {s : State} {d : Nat} {dr : Drive} {t : TpiChip}
    (hdr : s.drives[d]? = some dr) (hctl : dr.ctl = .tpi t) (c : ViaId) (x : ViaReg) (v : Byte) :
    exec (viaRead d c x) s = .refused (.noSuchChip d) ∧
    exec (viaWrite d v c x) s = .refused (.noSuchChip d) := by
  obtain ⟨_, hread⟩ := exec_viaRead d c x s
  obtain ⟨_, hwrite⟩ := exec_viaWrite d v c x s
  exact ⟨hread.trans (onVia_of_tpi hdr hctl _), hwrite.trans (onVia_of_tpi hdr hctl _)⟩

/-- Settles O3: the reserved tags are those of `decodeTag_eq_none_iff`; whatever stands at an offset
of a chip's window runs under `onTpi` or `onVia`, which refuse a drive of the other variant. -/
theorem reservedAndForeignTagsRefused : Obligations.ReservedAndForeignTagsRefused := by
  refine ⟨fun r => (decode_eq_reservedTag_iff r).trans (decodeTag_eq_none_iff r),
    fun s r rest => step_reservedTag,
    fun s o d off v dr b dd hdr hctl => exec_tpiAccess_of_via hdr hctl off v,
    fun s o d off v dr c hdr hctl => ?_⟩
  obtain ⟨hreadB, hwriteB⟩ := exec_viaAccess_of_tpi hdr hctl .viab (viaRegAt o off) v
  obtain ⟨hreadD, hwriteD⟩ := exec_viaAccess_of_tpi hdr hctl .viad (viaRegAt o off) v
  exact ⟨hreadB, hwriteB, hreadD, hwriteD⟩

end Machine
end Sys2Proof
end

section
/-! The group and sector encoders byte by byte (R97, R99, R100, R133), and the sizes of the formats
(R104, R139). -/

namespace Sys2Proof.Machine

set_option Elab.async false

/-! ### One group (R97) -/

/-- Five bytes cut from eight codes in a row (R131) are the shifts and masks of R97: each of the 40
bits is the same bit of the same code on both sides. -/
theorem bytes_of_eight_codes (x0 x1 x2 x3 x4 x5 x6 x7 : Code) :
    let g : BitVec 40 := x0 ++ x1 ++ x2 ++ x3 ++ x4 ++ x5 ++ x6 ++ x7
    let w := fun x : Code => x.setWidth 8
    g.extractLsb' 32 8 = (w x0 <<< 3) ||| (w x1 >>> 2) ∧
    g.extractLsb' 24 8 = ((w x1 &&& 0x03) <<< 6) ||| (w x2 <<< 1) ||| (w x3 >>> 4) ∧
    g.extractLsb' 16 8 = ((w x3 &&& 0x0F) <<< 4) ||| (w x4 >>> 1) ∧
    g.extractLsb' 8 8 = ((w x4 &&& 0x01) <<< 7) ||| (w x5 <<< 2) ||| (w x6 >>> 3) ∧
    g.extractLsb' 0 8 = ((w x6 &&& 0x07) <<< 5) ||| w x7 := by
  refine ⟨?_, ?_, ?_, ?_, ?_⟩ <;> ext i hi <;> interval_cases i <;>
    (simp only [BitVec.getElem_extractLsb', BitVec.getLsbD_append]; simp)

theorem encode4to5_eq_packed (tbl : List Code) (a b c e : Byte) :
    let w := codeByte tbl
    encode4to5 tbl a b c e =
      [(w (hi4 a) <<< 3) ||| (w (lo4 a) >>> 2),
       ((w (lo4 a) &&& 0x03) <<< 6) ||| (w (hi4 b) <<< 1) ||| (w (lo4 b) >>> 4),
       ((w (lo4 b) &&& 0x0F) <<< 4) ||| (w (hi4 c) >>> 1),
       ((w (hi4 c) &&& 0x01) <<< 7) ||| (w (lo4 c) <<< 2) ||| (w (hi4 e) >>> 3),
       ((w (hi4 e) &&& 0x07) <<< 5) ||| w (lo4 e)] := by
  obtain ⟨h0, h1, h2, h3, h4⟩ := bytes_of_eight_codes (codeOf tbl (hi4 a)) (codeOf tbl (lo4 a))
    (codeOf tbl (hi4 b)) (codeOf tbl (lo4 b)) (codeOf tbl (hi4 c)) (codeOf tbl (lo4 c))
    (codeOf tbl (hi4 e)) (codeOf tbl (lo4 e))
  simp only [encode4to5, groupBits, h0, h1, h2, h3, h4]
  rfl

/-- Settles O18: `GCR.ENC4` returns `encode4to5`, whose bytes are `encode4to5_eq_packed`. -/
theorem groupPacking : Obligations.GroupPacking :=
  fun s a b c e => congrArg (done s <| .bytes ·) (encode4to5_eq_packed s.params.gcrTable a b c e)

/-! ### A sector buffer (R99, R100, R133) -/

theorem slice_append_left {l₁ l₂ : List Byte} {i n : Nat} (h : i + n ≤ l₁.length) :
    slice (l₁ ++ l₂) i n = slice l₁ i n := by
  rw [slice, List.drop_append_of_le_length (by omega), List.take_append_of_le_length (by simp; omega),
    slice]

theorem slice_append_right {l₁ l₂ : List Byte} {i : Nat} (h : l₁.length ≤ i) (n : Nat) :
    slice (l₁ ++ l₂) i n = slice l₂ (i - l₁.length) n := by
  rw [slice, List.drop_append, List.drop_eq_nil_of_le h, List.nil_append, slice]

theorem slice_left {l₁ : List Byte} {n : Nat} (h : l₁.length = n) (l₂ : List Byte) :
    slice (l₁ ++ l₂) 0 n = l₁ :=
  List.take_left' h

/-- A row of five-byte parts, part `k` of it. -/
theorem slice_flatten {L : List (List Byte)} (hL : ∀ l ∈ L, l.length = 5) (rest : List Byte) {k : Nat}
    (hk : k < L.length) : slice (L.flatten ++ rest) (5 * k) 5 = L[k] := by
  induction L generalizing k with
  | nil => cases hk
  | cons l L ih =>
    obtain ⟨hl, hL⟩ := List.forall_mem_cons.1 hL
    rw [List.flatten_cons, List.append_assoc]
    cases k with
    | zero => exact slice_left hl _
    | succ k =>
      rw [slice_append_right (by omega), hl]
      exact ih hL (Nat.lt_of_succ_lt_succ hk)

@[simp] theorem encode4to5_length (tbl : List Code) (a b c e : Byte) :
    (encode4to5 tbl a b c e).length = 5 := rfl

/-- R133: group `k` encodes bytes `4k` to `4k + 3`. -/
theorem slice_encodeGroups (tbl : List Code) (l : List Byte) (k : Nat) (hk : 4 * k + 4 ≤ l.length) :
    slice (encodeGroups tbl l) (5 * k) 5 = encode4to5 tbl (l.getD (4 * k) 0) (l.getD (4 * k + 1) 0)
      (l.getD (4 * k + 2) 0) (l.getD (4 * k + 3) 0) := by
  induction k generalizing l with
  | zero =>
    match l, hk with
    | a :: b :: c :: e :: rest, _ =>
      exact slice_left rfl _
  | succ k ih =>
    match l, hk with
    | a :: b :: c :: e :: rest, hk =>
      rw [encodeGroups, slice_append_right (by simp)]
      exact ih rest (by simpa [Nat.mul_add] using hk)

theorem xorAll_eq_xorOf (l : List Byte) : xorAll l = xorOf l :=
  List.foldl_eq_foldr

@[simp] theorem syncRun_length : syncRun.length = 5 := rfl

theorem gapGroup_length {P : Params} (hP : P.wf = true) : P.gapGroup.length = 5 := by
  simp only [Params.wf, Bool.and_eq_true, beq_iff_eq] at hP
  simp_all

/-- R100: what stands before the data block: sync, the header block's two groups, the gap, sync. -/
def sectorFront (P : Params) (track sector id1 id2 : Byte) : List (List Byte) :=
  [syncRun, encode4to5 P.gcrTable 0x08 (headerChk track sector id1 id2) sector track,
    encode4to5 P.gcrTable id1 id2 0x0F 0x0F, P.gapGroup, P.gapGroup, syncRun]

theorem encodeSector_parts (P : Params) (track sector id1 id2 : Byte) (data : List Byte) :
    encodeSector P track sector id1 id2 data = (sectorFront P track sector id1 id2).flatten ++
      (encodeGroups P.gcrTable (dataBlock data) ++ ([P.gapGroup, P.gapGroup].flatten ++ [])) := by
  simp [encodeSector, sectorFront, headerBlock, encodeGroups]

theorem sectorFront_fives {P : Params} (hP : P.wf = true) (track sector id1 id2 : Byte) :
    ∀ l ∈ sectorFront P track sector id1 id2, l.length = 5 := by
  simp [sectorFront, gapGroup_length hP]

theorem sectorFront_length {P : Params} (hP : P.wf = true) (track sector id1 id2 : Byte) :
    (sectorFront P track sector id1 id2).flatten.length = 30 := by
  simp [sectorFront, gapGroup_length hP]

theorem dataBlock_length {data : List Byte} (hd : data.length = 256) :
    (dataBlock data).length = 260 := by
  simp [dataBlock, hd]

theorem dataBlock_mark (data : List Byte) : (dataBlock data).getD 0 0 = 0x07 := rfl

theorem dataBlock_data {data : List Byte} {j : Nat} (hj : j < data.length) :
    (dataBlock data).getD (j + 1) 0 = data.getD j 0 :=
  List.getD_append data _ 0 j hj

theorem dataBlock_tail {data : List Byte} (hd : data.length = 256) (j : Nat) :
    (dataBlock data).getD (257 + j) 0 = [xorOf data, 0, 0].getD j 0 := by
  rw [dataBlock, List.getD_append_right _ _ _ _ (by simp [hd]), xorAll_eq_xorOf]
  simp [hd]

theorem encodedData_length (tbl : List Code) {data : List Byte} (hd : data.length = 256) :
    (encodeGroups tbl (dataBlock data)).length = 325 :=
  encodeGroups_length tbl 65 _ (dataBlock_length hd)

section
variable {P : Params} (hP : P.wf = true) (track sector id1 id2 : Byte) {data : List Byte}
include hP

/-- R100: the six parts before the data block. -/
theorem slice_encodeSector_front (data : List Byte) {k : Nat} (hk : k < 6) :
    slice (encodeSector P track sector id1 id2 data) (5 * k) 5 =
      (sectorFront P track sector id1 id2)[k] := by
  rw [encodeSector_parts]
  exact slice_flatten (sectorFront_fives hP track sector id1 id2) _ hk

/-- R100, R133: the groups of the data block, from index 30 on. -/
theorem slice_encodeSector_group (hd : data.length = 256) {k : Nat} (hk : k ≤ 64) {a b c e : Byte}
    (ha : (dataBlock data).getD (4 * k) 0 = a) (hb : (dataBlock data).getD (4 * k + 1) 0 = b)
    (hc : (dataBlock data).getD (4 * k + 2) 0 = c) (he : (dataBlock data).getD (4 * k + 3) 0 = e) :
    slice (encodeSector P track sector id1 id2 data) (30 + 5 * k) 5 =
      encode4to5 P.gcrTable a b c e := by
  have hfront := sectorFront_length hP track sector id1 id2
  rw [encodeSector_parts, slice_append_right (by omega), hfront, Nat.add_sub_cancel_left,
    slice_append_left (by rw [encodedData_length _ hd]; omega),
    slice_encodeGroups _ _ _ (by rw [dataBlock_length hd]; omega), ha, hb, hc, he]

/-- R100: the two gap groups after the data block. -/
theorem slice_encodeSector_gap (hd : data.length = 256) {k : Nat} (hk : k < 2) :
    slice (encodeSector P track sector id1 id2 data) (355 + 5 * k) 5 = P.gapGroup := by
  have hgap : ∀ l ∈ [P.gapGroup, P.gapGroup], l.length = 5 := by simp [gapGroup_length hP]
  have hfront := sectorFront_length hP track sector id1 id2
  have hdata := encodedData_length P.gcrTable hd
  rw [encodeSector_parts, slice_append_right (by omega), slice_append_right (by omega), hfront, hdata,
    show 355 + 5 * k - 30 - 325 = 5 * k by omega, slice_flatten hgap _ hk]
  match k, hk with
  | 0, _ | 1, _ => rfl

end

/-- Settles O20: the slices are those of `slice_encodeSector_front`, `slice_encodeSector_group` and
`slice_encodeSector_gap`; a group inside the data block holds four bytes of `data`. -/
theorem sectorBufferLayout : Obligations.SectorBufferLayout := by
  intro s track sector id1 id2 data hP hd enc x
  have hfront {k : Nat} (hk : k < 6) := slice_encodeSector_front hP track sector id1 id2 data hk
  have hgap {k : Nat} (hk : k < 2) := slice_encodeSector_gap hP track sector id1 id2 hd hk
  have hgroup := @slice_encodeSector_group s.params hP track sector id1 id2 data hd
  have hx (j : Nat) (hj : j < 256) : (dataBlock data).getD (j + 1) 0 = x j :=
    dataBlock_data (by omega)
  have htail := dataBlock_tail hd
  refine ⟨encodeSector s.params track sector id1 id2 data, rfl,
    encodeSector_length hP _ _ _ _ _ hd, hfront (k := 0) (by decide), hfront (k := 1) (by decide),
    hfront (k := 2) (by decide), hfront (k := 3) (by decide), hfront (k := 4) (by decide),
    hfront (k := 5) (by decide), ?_, fun k hk0 hk => ?_, ?_, hgap (k := 0) (by decide),
    hgap (k := 1) (by decide)⟩
  · exact hgroup (k := 0) (by decide) (dataBlock_mark data) (hx 0 (by decide)) (hx 1 (by decide))
      (hx 2 (by decide))
  · have hfirst := hx (4 * k - 1) (by omega)
    rw [show 4 * k - 1 + 1 = 4 * k by omega] at hfirst
    exact hgroup (by omega) hfirst (hx (4 * k) (by omega)) (hx (4 * k + 1) (by omega))
      (hx (4 * k + 2) (by omega))
  · exact hgroup (k := 64) (by decide) (hx 255 (by decide)) (htail 0) (htail 1) (htail 2)

/-! ### The sizes of the formats (R104, R139) -/

theorem prefixSums_getLast? (acc : Nat) (ns : List Nat) :
    (prefixSums acc ns).getLast? = some (acc + 256 * ns.sum) := by
  induction ns generalizing acc with
  | nil => rfl
  | cons n ns ih =>
    rw [prefixSums, List.getLast?_cons, ih]
    simp [Nat.mul_add, Nat.add_assoc]

/-- R104, R139: the size of an image is 256 bytes for every sector. -/
theorem buildTable_getLast? (P : Params) (f : Format) :
    (buildTable P f).getLast? = some (256 * (FormatInfo.counts (P.formats.get f)).sum) := by
  rw [buildTable, prefixSums_getLast?, Nat.zero_add]

/-- Settles O26: the counts are those of the zones, and the sizes 256 times their sums. (The model has
a definition of the name `defaultFormats`.) -/
theorem defaultFormats_counts_and_sizes : Obligations.DefaultFormats := by
  refine ⟨rfl, rfl, rfl, rfl, rfl, rfl, ?_, ?_, ?_, ?_, ?_, ?_⟩ <;>
    exact (buildTable_getLast? ..).trans rfl

end Sys2Proof.Machine
end

section
/-! The group decoder inverts the group encoder (R96, R98, R131, R132): for a table of sixteen
distinct codes five bytes decode to four exactly when these four encode to those five. -/

namespace Sys2Proof.Machine

set_option Elab.async false

/-! ### Values joined from fields -/

theorem extractLsb'_extractLsb'_of_add_le {w : Nat} (g : BitVec w) (i j : Nat) {m n : Nat}
    (h : j + n ≤ m) : (g.extractLsb' i m).extractLsb' j n = g.extractLsb' (i + j) n := by
  ext k hk
  simp [show j + k < m by omega, Nat.add_assoc]

theorem append_eq_iff {m n : Nat} (x : BitVec m) (y : BitVec n) (g : BitVec (m + n)) :
    x ++ y = g ↔ x = g.extractLsb' n m ∧ y = g.extractLsb' 0 n := by
  constructor
  · rintro rfl
    exact ⟨BitVec.extractLsb'_append_eq_left.symm, BitVec.extractLsb'_append_eq_right.symm⟩
  · rintro ⟨rfl, rfl⟩
    rw [BitVec.extractLsb'_append_extractLsb'_eq_extractLsb' (Nat.zero_add n).symm]
    exact BitVec.extractLsb'_eq_self

/-- R97: a 40-bit group is its eight codes. -/
theorem eight_codes_eq_iff (x0 x1 x2 x3 x4 x5 x6 x7 : Code) (G : BitVec 40) :
    x0 ++ x1 ++ x2 ++ x3 ++ x4 ++ x5 ++ x6 ++ x7 = G ↔
      x0 = G.extractLsb' 35 5 ∧ x1 = G.extractLsb' 30 5 ∧ x2 = G.extractLsb' 25 5 ∧
      x3 = G.extractLsb' 20 5 ∧ x4 = G.extractLsb' 15 5 ∧ x5 = G.extractLsb' 10 5 ∧
      x6 = G.extractLsb' 5 5 ∧ x7 = G.extractLsb' 0 5 := by
  simp only [append_eq_iff, and_assoc]
  simp [extractLsb'_extractLsb'_of_add_le]

/-- R97: a 40-bit group is its five bytes. -/
theorem five_bytes_eq_iff (x0 x1 x2 x3 x4 : Byte) (G : BitVec 40) :
    x0 ++ x1 ++ x2 ++ x3 ++ x4 = G ↔
      x0 = G.extractLsb' 32 8 ∧ x1 = G.extractLsb' 24 8 ∧ x2 = G.extractLsb' 16 8 ∧
      x3 = G.extractLsb' 8 8 ∧ x4 = G.extractLsb' 0 8 := by
  simp only [append_eq_iff, and_assoc]
  simp [extractLsb'_extractLsb'_of_add_le]

/-- R9: a byte is its two nibbles. -/
theorem nibbles_eq_iff (hi lo : Nibble) (a : Byte) : hi ++ lo = a ↔ hi = hi4 a ∧ lo = lo4 a :=
  append_eq_iff hi lo a

/-- R131: the encoded group is the group's five bytes. -/
theorem encode4to5_eq_iff (tbl : List Code) (a b c e x0 x1 x2 x3 x4 : Byte) :
    encode4to5 tbl a b c e = [x0, x1, x2, x3, x4] ↔
      groupBits tbl a b c e = x0 ++ x1 ++ x2 ++ x3 ++ x4 := by
  rw [eq_comm (a := groupBits tbl a b c e), five_bytes_eq_iff]
  simp [encode4to5, eq_comm]

/-! ### One code (R96, R98) -/

/-- R96: a code table of a well-formed machine has sixteen distinct codes. -/
structure TableOk (tbl : List Code) : Prop where
  length : tbl.length = 16
  nodup : tbl.Nodup

theorem tableOk_of_wf {P : Params} (hP : P.wf = true) : TableOk P.gcrTable := by
  simp only [Params.wf, Bool.and_eq_true, beq_iff_eq, decide_eq_true_eq] at hP
  constructor <;> simp_all

theorem codeOf_eq_getElem {tbl : List Code} (ht : TableOk tbl) (n : Nibble) :
    codeOf tbl n = tbl[n.toNat]'(ht.length ▸ n.isLt) :=
  (List.getElem_eq_getD 0).symm

/-- R132: a nibble is found exactly for the code that the table gives it. -/
theorem nibbleOf_eq_some_iff {tbl : List Code} (ht : TableOk tbl) {g : Code} {n : Nibble} :
    nibbleOf tbl g = some n ↔ codeOf tbl n = g := by
  have hn : n.toNat < tbl.length := ht.length ▸ n.isLt
  rw [nibbleOf, Option.map_eq_some_iff, codeOf_eq_getElem ht]
  constructor
  · rintro ⟨i, hi, rfl⟩
    obtain ⟨hlt, hcode, -⟩ := List.findIdx?_eq_some_iff_getElem.1 hi
    have hin : (BitVec.ofNat 4 i).toNat = i := Nat.mod_eq_of_lt (ht.length ▸ hlt :)
    simpa [hin] using hcode
  · rintro rfl
    refine ⟨n.toNat, List.findIdx?_eq_some_iff_getElem.2 ⟨hn, by simp, fun j hj => ?_⟩, by simp⟩
    simpa [ht.nodup.getElem_inj_iff] using hj.ne

/-- R98, R132: no nibble is found exactly for a code outside the table. -/
theorem nibbleOf_eq_none_iff {tbl : List Code} {g : Code} : nibbleOf tbl g = none ↔ g ∉ tbl := by
  simp only [nibbleOf, Option.map_eq_none_iff, List.findIdx?_eq_none_iff, decide_eq_false_iff_not]
  exact ⟨fun h hg => h g hg rfl, fun h x hx hxg => h (hxg ▸ hx)⟩

/-! ### One group (R132) -/

/-- R132: a group decodes to four bytes exactly when its eight codes decode to their nibbles. -/
theorem decodeGroup_eq_some_nibbles (tbl : List Code) (x0 x1 x2 x3 x4 a b c e : Byte) :
    let G : BitVec 40 := x0 ++ x1 ++ x2 ++ x3 ++ x4
    decodeGroup tbl x0 x1 x2 x3 x4 = some (a, b, c, e) ↔
      nibbleOf tbl (G.extractLsb' 35 5) = some (hi4 a) ∧
      nibbleOf tbl (G.extractLsb' 30 5) = some (lo4 a) ∧
      nibbleOf tbl (G.extractLsb' 25 5) = some (hi4 b) ∧
      nibbleOf tbl (G.extractLsb' 20 5) = some (lo4 b) ∧
      nibbleOf tbl (G.extractLsb' 15 5) = some (hi4 c) ∧
      nibbleOf tbl (G.extractLsb' 10 5) = some (lo4 c) ∧
      nibbleOf tbl (G.extractLsb' 5 5) = some (hi4 e) ∧
      nibbleOf tbl (G.extractLsb' 0 5) = some (lo4 e) := by
  intro G
  dsimp only [decodeGroup, G]
  split
  next h0 h1 h2 h3 h4 h5 h6 h7 =>
    simp only [h0, h1, h2, h3, h4, h5, h6, h7, Option.some.injEq, Prod.mk.injEq, nibbles_eq_iff,
      and_assoc]
  next h =>
    simp only [reduceCtorEq, false_iff]
    rintro ⟨h0, h1, h2, h3, h4, h5, h6, h7⟩
    exact h _ _ _ _ _ _ _ _ h0 h1 h2 h3 h4 h5 h6 h7

/-- R132, R143: a group decodes to the four bytes that encode to it, and to no others. -/
theorem decodeGroup_eq_some_iff {tbl : List Code} (ht : TableOk tbl) {x0 x1 x2 x3 x4 a b c e : Byte} :
    decodeGroup tbl x0 x1 x2 x3 x4 = some (a, b, c, e) ↔
      encode4to5 tbl a b c e = [x0, x1, x2, x3, x4] := by
  refine (decodeGroup_eq_some_nibbles ..).trans ?_
  rw [encode4to5_eq_iff, groupBits, eight_codes_eq_iff]
  simp only [nibbleOf_eq_some_iff ht]

/-- R98, R132: a group is `invalid` exactly when one of its eight codes is outside the table. -/
theorem decodeGroup_eq_none_iff (tbl : List Code) (x0 x1 x2 x3 x4 : Byte) :
    let G : BitVec 40 := x0 ++ x1 ++ x2 ++ x3 ++ x4
    decodeGroup tbl x0 x1 x2 x3 x4 = none ↔
      ∃ i : Fin 8, G.extractLsb' (35 - 5 * i.val) 5 ∉ tbl := by
  intro G
  simp only [← nibbleOf_eq_none_iff]
  dsimp only [decodeGroup, G]
  split
  next h0 h1 h2 h3 h4 h5 h6 h7 =>
    simp [Fin.exists_fin_succ, h0, h1, h2, h3, h4, h5, h6, h7]
  next h =>
    simp only [true_iff]
    by_contra hsome
    push Not at hsome
    choose n hn using fun i => Option.ne_none_iff_exists'.1 (hsome i)
    exact h _ _ _ _ _ _ _ _ (hn 0) (hn 1) (hn 2) (hn 3) (hn 4) (hn 5) (hn 6) (hn 7)

/-- R132: five bytes decode to the four bytes that encode to them, anything else to none. -/
theorem decode5to4_eq_some_iff {tbl : List Code} (ht : TableOk tbl) {l : List Byte} {a b c e : Byte} :
    decode5to4 tbl l = some (a, b, c, e) ↔ encode4to5 tbl a b c e = l := by
  unfold decode5to4
  split
  next => exact decodeGroup_eq_some_iff ht
  next h =>
    simp only [reduceCtorEq, false_iff]
    rintro rfl
    exact h _ _ _ _ _ rfl

/-- R143: a group decodes to what was encoded. -/
theorem decode5to4_encode4to5 {tbl : List Code} (ht : TableOk tbl) (a b c e : Byte) :
    decode5to4 tbl (encode4to5 tbl a b c e) = some (a, b, c, e) :=
  (decode5to4_eq_some_iff ht).2 rfl

/-- Settles O19: `decodeGroup_eq_none_iff` says when a group is `invalid`, `decodeGroup_eq_some_iff`
what it decodes to otherwise. -/
theorem groupDecoding : Obligations.GroupDecoding := by
  intro s x0 x1 x2 x3 x4 hP G bad
  have ht := tableOk_of_wf hP
  have hbad : _ ↔ bad := decodeGroup_eq_none_iff s.params.gcrTable x0 x1 x2 x3 x4
  refine ⟨_, rfl, ?_⟩
  rw [← hbad, decode5to4]
  cases hdec : decodeGroup s.params.gcrTable x0 x1 x2 x3 x4 with
  | none => simp
  | some q =>
    obtain ⟨a, b, c, e⟩ := q
    exact ⟨by simp, fun _ => ⟨a, b, c, e, rfl, (decodeGroup_eq_some_iff ht).1 hdec⟩⟩

end Sys2Proof.Machine
end

section
/-! Decoding a header block, a data block and a whole sector buffer (R137, R138, R143): a block
decodes to the bytes that encode to it. -/

namespace Sys2Proof.Machine

set_option Elab.async false

/-! ### A header block (R137) -/

/-- R137: ten bytes decode to the eight fields that encode to them, and to no others. -/
theorem decodeHeader_eq_some_iff {tbl : List Code} (ht : TableOk tbl) {l : List Byte} {h : Header} :
    decodeHeader tbl l = some h ↔
      encode4to5 tbl h.mark h.chk h.sector h.track ++ encode4to5 tbl h.id1 h.id2 h.pad1 h.pad2 = l := by
  constructor
  · intro hdec
    unfold decodeHeader at hdec
    split at hdec
    next h1 h2 =>
      obtain rfl := Option.some.inj hdec
      rw [(decode5to4_eq_some_iff ht).1 h1, (decode5to4_eq_some_iff ht).1 h2, List.take_append_drop]
    next => cases hdec
  · rintro rfl
    have hlen := encode4to5_length tbl h.mark h.chk h.sector h.track
    rw [decodeHeader, List.take_left' hlen, List.drop_left' hlen]
    simp only [decode5to4_encode4to5 ht]

/-- R137: the model's `header_ok` is the rule's. -/
theorem Header.valid_eq (h : Header) :
    h.valid = decide (h.mark = 0x08 ∧ h.chk = h.sector ^^^ h.track ^^^ h.id1 ^^^ h.id2) :=
  (Bool.decide_and _ _).symm

/-- Settles O22: the fields are those of `decodeHeader_eq_some_iff`. -/
theorem headerDecoding : Obligations.HeaderDecoding := by
  intro s g hP _ encodes
  have hdec (h : Header) : decodeHeader s.params.gcrTable g = some h ↔ encodes h :=
    decodeHeader_eq_some_iff (tableOk_of_wf hP)
  refine ⟨_, rfl, fun h hh => ?_, fun hno => ?_⟩
  · rw [(hdec h).2 hh, ← h.valid_eq]
  · rw [Option.eq_none_iff_forall_ne_some.2 fun h hh => hno h ((hdec h).1 hh)]

/-! ### A data block (R138) -/

/-- R138: what decodes is a row of groups of four bytes that encodes to the row decoded. -/
theorem encodeGroups_of_decodeGroups {tbl : List Code} (ht : TableOk tbl) {l blk : List Byte}
    (h : decodeGroups tbl l = some blk) : encodeGroups tbl blk = l ∧ 4 ∣ blk.length := by
  induction l using decodeGroups.induct (tbl := tbl) generalizing blk with
  | case1 => obtain rfl := Option.some.inj h; exact ⟨rfl, dvd_zero 4⟩
  | case2 x0 x1 x2 x3 x4 rest a b c e l hrest hgroup ih =>
    simp only [decodeGroups, hgroup, hrest, Option.some.injEq] at h
    subst h
    obtain ⟨henc, hlen⟩ := ih hrest
    rw [encodeGroups, (decodeGroup_eq_some_iff ht).1 hgroup, henc]
    exact ⟨rfl, Nat.dvd_add_self_right.2 hlen⟩
  | case3 x0 x1 x2 x3 x4 rest hno ih =>
    rw [decodeGroups] at h
    split at h
    next hgroup hrest => exact (hno _ _ _ _ _ hgroup hrest).elim
    next => cases h
  | case4 l hnil hshort =>
    rw [decodeGroups.eq_3 tbl l hnil hshort] at h
    cases h

/-- R138, R143: a row of groups decodes to the bytes that were encoded. -/
theorem decodeGroups_encodeGroups {tbl : List Code} (ht : TableOk tbl) {blk : List Byte} {n : Nat}
    (hn : blk.length = 4 * n) : decodeGroups tbl (encodeGroups tbl blk) = some blk := by
  induction n generalizing blk with
  | zero => rw [List.length_eq_zero_iff.1 hn]; rfl
  | succ n ih =>
    match blk, hn with
    | a :: b :: c :: e :: rest, hn =>
      have hgroup := (decodeGroup_eq_some_iff ht).2 (rfl : encode4to5 tbl a b c e = _)
      have hrest := ih (blk := rest) (by simpa [Nat.mul_add] using hn)
      simp only [encodeGroups, encode4to5, List.cons_append, List.nil_append, decodeGroups, hgroup, hrest]

theorem eq_of_slices_eq {n : Nat} {l m : List Byte} (hl : l.length = 5 * n) (hm : m.length = 5 * n)
    (h : ∀ k, k < n → slice l (5 * k) 5 = slice m (5 * k) 5) : l = m := by
  induction n generalizing l m with
  | zero => simp_all
  | succ n ih =>
    have hfirst : l.take 5 = m.take 5 := h 0 (Nat.succ_pos n)
    have hrest : l.drop 5 = m.drop 5 := by
      refine ih (by simp; omega) (by simp; omega) fun k hk => ?_
      simpa [slice, Nat.mul_add, Nat.add_comm] using h (k + 1) (Nat.succ_lt_succ hk)
    rw [← List.take_append_drop 5 l, hfirst, hrest, List.take_append_drop]

/-- R133: a row of five-byte groups is an encoding exactly when each group is. -/
theorem encodeGroups_eq_iff_slices (tbl : List Code) {n : Nat} {l blk : List Byte}
    (hblk : blk.length = 4 * n) (hl : l.length = 5 * n) :
    encodeGroups tbl blk = l ↔ ∀ k, k < n → slice l (5 * k) 5 = encode4to5 tbl (blk.getD (4 * k) 0)
      (blk.getD (4 * k + 1) 0) (blk.getD (4 * k + 2) 0) (blk.getD (4 * k + 3) 0) := by
  constructor
  · rintro rfl k hk
    exact slice_encodeGroups tbl blk k (by omega)
  · intro h
    refine eq_of_slices_eq (encodeGroups_length tbl n blk hblk) hl fun k hk => ?_
    rw [slice_encodeGroups tbl blk k (by omega), h k hk]

/-- R138: 5n bytes decode to the 4n bytes that encode to them, and to no others. -/
theorem decodeGroups_eq_some_iff {tbl : List Code} (ht : TableOk tbl) {n : Nat} {l blk : List Byte}
    (hl : l.length = 5 * n) :
    decodeGroups tbl l = some blk ↔ blk.length = 4 * n ∧ encodeGroups tbl blk = l := by
  constructor
  · intro h
    obtain ⟨henc, m, hm⟩ := encodeGroups_of_decodeGroups ht h
    have hlen := encodeGroups_length tbl m blk hm
    rw [henc, hl] at hlen
    exact ⟨by omega, henc⟩
  · rintro ⟨hn, rfl⟩
    exact decodeGroups_encodeGroups ht hn

/-- R138: the data, `xsum` and `data_ok` of a decoded block. -/
theorem decodeData_of_groups {tbl : List Code} {l blk : List Byte}
    (h : decodeGroups tbl l = some blk) : decodeData tbl l = some (slice blk 1 256, blk.getD 257 0,
      decide (blk.getD 0 0 = 0x07 ∧ blk.getD 257 0 = xorOf (slice blk 1 256))) := by
  simp only [decodeData, h, ← xorAll_eq_xorOf]
  exact congrArg (fun ok => some (_, _, ok)) (Bool.decide_and _ _).symm

/-- Settles O23: the bytes are those of `decodeGroups_eq_some_iff`, read by `decodeData_of_groups`. -/
theorem dataDecoding : Obligations.DataDecoding := by
  intro s g hP hg encodes
  have hdec (blk : List Byte) : decodeGroups s.params.gcrTable g = some blk ↔ encodes blk :=
    (decodeGroups_eq_some_iff (n := 65) (tableOk_of_wf hP) hg).trans
      (and_congr_right fun hblk => encodeGroups_eq_iff_slices _ hblk hg)
  refine ⟨_, rfl, fun blk hblk => ?_, fun hno => ?_⟩
  · rw [decodeData_of_groups ((hdec blk).2 hblk)]
  · have hnone := Option.eq_none_iff_forall_ne_some.2 fun blk h => hno blk ((hdec blk).1 h)
    simp only [decodeData, hnone]

/-! ### A sector buffer (R143) -/

theorem slice_add (l : List Byte) (i m n : Nat) :
    slice l i (m + n) = slice l i m ++ slice l (i + m) n := by
  simp only [slice, List.take_add, List.drop_drop]

/-- R100: the ten bytes of the header block are its two groups. -/
theorem slice_encodeSector_header {P : Params} (hP : P.wf = true) (track sector id1 id2 : Byte)
    (data : List Byte) : slice (encodeSector P track sector id1 id2 data) 5 10 =
      encode4to5 P.gcrTable 0x08 (headerChk track sector id1 id2) sector track ++
        encode4to5 P.gcrTable id1 id2 0x0F 0x0F := by
  have hfront {k : Nat} (hk : k < 6) := slice_encodeSector_front hP track sector id1 id2 data hk
  exact (slice_add _ 5 5 5).trans
    (congrArg₂ (· ++ ·) (hfront (k := 1) (by decide)) (hfront (k := 2) (by decide)))

/-- R100: the 325 bytes of the data block. -/
theorem slice_encodeSector_data {P : Params} (hP : P.wf = true) (track sector id1 id2 : Byte)
    {data : List Byte} (hd : data.length = 256) :
    slice (encodeSector P track sector id1 id2 data) 30 325 =
      encodeGroups P.gcrTable (dataBlock data) := by
  have hfront := sectorFront_length hP track sector id1 id2
  rw [encodeSector_parts, slice_append_right hfront.le, hfront]
  exact slice_left (encodedData_length P.gcrTable hd) _

theorem slice_dataBlock {data : List Byte} (hd : data.length = 256) :
    slice (dataBlock data) 1 256 = data :=
  slice_left hd _

/-- R132: the value returned for five bytes that decode. -/
theorem exec_gcrDec5_of_decodes {s : State} {g : List Byte} {a b c e : Byte}
    (h : decode5to4 s.params.gcrTable g = some (a, b, c, e)) :
    exec (.gcrDec5 g) s = .next (s.returns (.bytes [a, b, c, e])) := by
  change execGcrDec5 g s = _
  rw [execGcrDec5, h]
  rfl

/-- Settles O21: the slices of the buffer are the encodings of the header block and of the data block,
which `headerDecoding` and `dataDecoding` decode; a group decodes by `decode5to4_encode4to5`. -/
theorem sectorRoundTrip : Obligations.SectorRoundTrip := by
  intro s track sector id1 id2 data hP hd out
  have hhdr := slice_encodeSector_header hP track sector id1 id2 data
  have hdata := slice_encodeSector_data hP track sector id1 id2 hd
  refine ⟨rfl, ?_, ?_, fun a b c e =>
    exec_gcrDec5_of_decodes (decode5to4_encode4to5 (tableOk_of_wf hP) a b c e)⟩
  · obtain ⟨r, hexec, hdec, -⟩ := headerDecoding s (slice out 5 10) hP (by rw [hhdr]; rfl)
    rw [hexec, hdec ⟨0x08, headerChk track sector id1 id2, sector, track, id1, id2, 0x0F, 0x0F⟩ hhdr.symm]
    simp [headerChk]
  · have hlen := encodedData_length s.params.gcrTable hd
    obtain ⟨r, hexec, hdec, -⟩ := dataDecoding s (slice out 30 325) hP (by rw [hdata, hlen])
    have hblk := dataBlock_length hd
    have hxsum : (dataBlock data).getD 257 0 = xorOf data := dataBlock_tail hd 0
    rw [hexec, hdec (dataBlock data)
      ⟨hblk, (encodeGroups_eq_iff_slices _ (n := 65) hblk (by rw [hdata, hlen])).1 hdata.symm⟩,
      slice_dataBlock hd, hxsum, dataBlock_mark]
    simp

end Sys2Proof.Machine
end

section
/-! Disk addressing (R139 to R142): entry `t` of an offset table is 256 bytes for every sector before
track `t + 1`, and an address counts 256 bytes for every sector before its coordinate. -/

namespace Sys2Proof.Machine

set_option Elab.async false

/-! ### The offset table (R139) -/

@[simp] theorem prefixSums_length (acc : Nat) (ns : List Nat) :
    (prefixSums acc ns).length = ns.length + 1 := by
  induction ns generalizing acc with
  | nil => rfl
  | cons n ns ih => simp [prefixSums, ih]

/-- R139 in closed form. -/
theorem prefixSums_getD (acc : Nat) (ns : List Nat) {k : Nat} (hk : k ≤ ns.length) :
    (prefixSums acc ns).getD k 0 = acc + 256 * (ns.take k).sum := by
  induction ns generalizing acc k with
  | nil => obtain rfl := Nat.le_zero.1 hk; rfl
  | cons n ns ih =>
    cases k with
    | zero => rfl
    | succ k =>
      rw [prefixSums, List.getD_cons_succ, ih _ (Nat.le_of_succ_le_succ hk), List.take_succ_cons,
        List.sum_cons, Nat.mul_add, Nat.add_assoc]

/-- The number of sectors on the tracks `1 .. t` of a format. -/
def sectorsThrough (P : Params) (f : Format) (t : Nat) : Nat :=
  ((FormatInfo.counts (P.formats.get f)).take t).sum

theorem buildTable_length (P : Params) (f : Format) :
    (buildTable P f).length = maxTrackOf P f + 1 :=
  prefixSums_length 0 _

theorem buildTable_getD (P : Params) (f : Format) {t : Nat} (ht : t ≤ maxTrackOf P f) :
    (buildTable P f).getD t 0 = 256 * sectorsThrough P f t :=
  (prefixSums_getD 0 _ ht).trans (Nat.zero_add _)

theorem sectorsThrough_track (P : Params) (f : Format) {t : Nat} (h1 : 1 ≤ t)
    (h2 : t ≤ maxTrackOf P f) :
    sectorsThrough P f t = sectorsThrough P f (t - 1) + sptOf P f t := by
  obtain ⟨k, rfl⟩ := Nat.exists_eq_add_of_le' h1
  rw [sptOf, if_neg (Nat.succ_ne_zero k), Nat.add_sub_cancel, ← List.getElem_eq_getD (h := h2)]
  exact List.sum_take_succ _ k h2

theorem sectorsThrough_mono (P : Params) (f : Format) : Monotone (sectorsThrough P f) :=
  List.monotone_sum_take _

/-- Settles O27: the recurrence of the table is that of `sectorsThrough`. -/
theorem offsetTable : Obligations.OffsetTable := by
  intro s f
  refine ⟨buildTable s.params f, rfl, buildTable_length _ _,
    buildTable_getD _ _ (Nat.zero_le _), fun t h1 h2 => ?_⟩
  rw [buildTable_getD _ _ h2, buildTable_getD _ _ (by omega), sectorsThrough_track _ _ h1 h2,
    Nat.mul_add]

/-! ### The address of a coordinate (R140 to R142) -/

theorem offset?_eq_some {table : List Nat} {track : Nat} (h1 : 1 ≤ track)
    (h2 : track < table.length) (sector : Nat) :
    offset? table track sector = some (table.getD (track - 1) 0 + sector * 256) :=
  if_pos ⟨h1, h2⟩

theorem offset?_eq_none {table : List Nat} {track : Nat} (h : track < 1 ∨ table.length ≤ track)
    (sector : Nat) : offset? table track sector = none :=
  if_neg (by omega)

/-- Settles O28: `DSK.OFFSET` answers `offset?`, which has a value exactly on the table's tracks. -/
theorem offsetOfCoordinate : Obligations.OffsetOfCoordinate := by
  intro s table track sector
  change (_ → _ → execDskOffset table track sector s = _) ∧
    (_ → execDskOffset table track sector s = _)
  unfold execDskOffset
  refine ⟨fun h1 h2 => ?_, fun h => ?_⟩
  · rw [offset?_eq_some h1 h2]
    rfl
  · rw [offset?_eq_none h]

/-- R140: the address of a coordinate is 256 bytes for every sector before it. -/
theorem offset?_buildTable (P : Params) (f : Format) {t : Nat} (h1 : 1 ≤ t)
    (h2 : t ≤ maxTrackOf P f) (s : Nat) :
    offset? (buildTable P f) t s = some (256 * (sectorsThrough P f (t - 1) + s)) := by
  rw [offset?_eq_some h1 (by rw [buildTable_length]; omega), buildTable_getD P f (by omega),
    Nat.mul_add, Nat.mul_comm s]

/-- R142: in lexicographic order a later coordinate has more sectors before it. -/
theorem sectorsBefore_lt (P : Params) (f : Format) {t s t' s' : Nat} (h1 : 1 ≤ t)
    (h2 : t ≤ maxTrackOf P f) (hs : s < sptOf P f t) (hlt : t < t' ∨ (t = t' ∧ s < s')) :
    sectorsThrough P f (t - 1) + s < sectorsThrough P f (t' - 1) + s' := by
  rcases hlt with hlt | ⟨rfl, hlt⟩
  · have htrack := sectorsThrough_track P f h1 h2
    have hmono := sectorsThrough_mono P f (show t ≤ t' - 1 by omega)
    omega
  · exact Nat.add_lt_add_left hlt _

/-- Settles O29: by `offset?_buildTable` addresses compare as `sectorsBefore_lt` says; the last sector
of a track is followed by the first of the next by `sectorsThrough_track`. -/
theorem offsetsIncrease : Obligations.OffsetsIncrease := by
  intro P f _ table valid
  have haddr {t : Nat} (h1 : 1 ≤ t) (h2 : t ≤ maxTrackOf P f) (s : Nat) :
      offset? table t s = some (256 * (sectorsThrough P f (t - 1) + s)) :=
    offset?_buildTable P f h1 h2 s
  refine ⟨fun t s ⟨h1, h2, _⟩ => ⟨_, haddr h1 h2 s, Nat.mul_mod_right ..⟩, ?_, ?_⟩
  · rintro t s t' s' a a' ⟨h1, h2, hs⟩ ⟨h1', h2', _⟩ hlt ha ha'
    obtain rfl := Option.some.inj ((haddr h1 h2 s).symm.trans ha)
    obtain rfl := Option.some.inj ((haddr h1' h2' s').symm.trans ha')
    exact Nat.mul_lt_mul_of_pos_left (sectorsBefore_lt P f h1 h2 hs hlt) (by decide)
  · rintro t s a ⟨h1, h2, hs⟩ ha
    obtain rfl := Option.some.inj ((haddr h1 h2 s).symm.trans ha)
    refine ⟨fun _ => haddr h1 h2 (s + 1), fun hlast hnext => ?_⟩
    have htrack := sectorsThrough_track P f h1 h2
    rw [haddr (Nat.le_add_left 1 t) hnext, Nat.add_sub_cancel, htrack, ← hlast]
    rfl

end Sys2Proof.Machine
end

section
/-! `MECH.REGEN` (R135, R136): what a change of one drive alone makes of the state, and the buffer of
the sector under the head. -/

namespace Sys2Proof.Machine

set_option Elab.async false

/-- An operation that changes drive `d` by `f` and completes touches nothing else. -/
theorem driveBecomes_mapDrive {s : State} {d : Nat} {dr : Drive} (hdr : s.drives[d]? = some dr)
    (f : Drive → Drive) (r : Result) :
    DriveBecomes d s ((s.mapDrive d f).returns r) (f dr) r where
  only := {
    fixed := ⟨rfl, rfl, rfl, rfl⟩
    bus := rfl
    others := ⟨List.length_modify .., fun _ he => List.getElem?_modify_ne f _ he.symm⟩ }
  drive := by simp [State.mapDrive, hdr]
  events := rfl
  retry := rfl
  result := rfl

/-- R31: the head of a sound drive is on a track of the mounted format. -/
theorem curTrack_mem_format {P : Params} {dr : Drive} {im : Image} (h : dr.Sound P)
    (him : dr.img = some im) : 1 ≤ dr.curTrack ∧ dr.curTrack ≤ maxTrackOf P im.format := by
  have hlow := h.mech.headLow
  have hhigh := h.mech.headHigh
  rw [Drive.maxTrack, him] at hhigh
  simp only [(h.image im him).maxTrack] at hhigh
  unfold Drive.curTrack
  omega

/-- R136: with no image regeneration changes nothing. -/
theorem regen_of_no_image (P : Params) {dr : Drive} (h : dr.img = none) : dr.regen P = dr := by
  rw [Drive.regen, h]

/-- R135: on a track of the mounted image regeneration encodes the current sector. -/
theorem regen_of_image (P : Params) {dr : Drive} {im : Image} (him : dr.img = some im)
    (h1 : 1 ≤ dr.curTrack) (h2 : dr.curTrack < im.table.length) :
    dr.regen P = { dr with buf := sectorBuffer P im dr.curTrack dr.mech.sector } := by
  rw [Drive.regen, him]
  simp only [offset?_eq_some h1 h2]
  rfl

/-- Settles O30: the coordinate under the head of a sound drive is in the image's table. -/
theorem regenerateResult : Obligations.RegenerateResult := by
  intro s d dr hs hdr
  refine ⟨fun hoff => onPowered_of_off hdr hoff _, fun hon => ?_⟩
  refine ⟨_, onPowered_of_on hdr hon _, ?_⟩
  have hbecomes := driveBecomes_mapDrive hdr (fun dr => dr.regen s.params) .none
  cases him : dr.img with
  | none => simpa only [regen_of_no_image _ him] using hbecomes
  | some im =>
    have hsound := hs.drive hdr
    obtain ⟨h1, h2⟩ := curTrack_mem_format hsound him
    have htable : dr.curTrack < im.table.length := by
      rw [(hsound.image im him).table, buildTable_length]
      omega
    simpa only [regen_of_image _ him h1 htable, him, Drive.curTrack] using hbecomes

end Sys2Proof.Machine
end

section
/-! R163 over every operation: an operation that cannot write to the bus leaves it alone, and each of
the five that can (`reachesBus`) leaves every line the AND of the latches. -/

namespace Sys2Proof.Machine

set_option Elab.async false

/-- R163 holds of the bus of the state. -/
def State.BusSettled (s : State) : Prop := BusConsistent s.bus

theorem State.BusSettled.of_bus_eq {s t : State} (h : s.BusSettled) (hbus : t.bus = s.bus) :
    t.BusSettled := by
  rw [State.BusSettled, hbus]
  exact h

theorem State.BusSettled.busSet {s : State} (h : s.BusSettled) (p : Nat) (l : Line) (v : Bool) :
    (s.busSet p l v).BusSettled :=
  busSet_consistent h p l v

theorem State.BusSettled.release {s : State} (h : s.BusSettled) (p : Nat) :
    (s.release p).BusSettled :=
  ((h.busSet p _ _).busSet p _ _).busSet p _ _

theorem State.BusSettled.applyBusOutputs {s : State} (h : s.BusSettled) (d : Nat) :
    (s.applyBusOutputs d).BusSettled := by
  rcases applyBusOutputs_cases s d with heq | ⟨v, w, heq⟩
  · rw [heq]
    exact h
  · rw [heq]
    exact (h.busSet _ _ _).busSet _ _ _

theorem State.BusSettled.completes {s : State} (h : s.BusSettled) (r : Result) :
    Ensures (done s r) State.BusSettled :=
  ensures_done h

/-- R216, R228: a register write of a bus chip whose driven pins then reach the bus. -/
theorem State.BusSettled.registerWrite {s : State} (h : s.BusSettled) (d : Nat)
    (f : Controller → Controller) : ((s.mapCtl d f).applyBusOutputs d).BusSettled :=
  (h.of_bus_eq (State.mapCtl_bus s d f)).applyBusOutputs d

/-- R300: a reset releases every latch and every line, whatever stood there. -/
theorem sysReset_busSettled (s : State) : Ensures (execSysReset s) State.BusSettled := by
  refine ensures_done ?_
  have hreset : s.resetAll.BusSettled := by
    rw [State.BusSettled, resetAll_bus]
    exact withIdleBus_consistent s
  exact hreset

/-- R303: a power-off resets the chips, which the bus does not see, then releases the latches. -/
theorem sysPwroff_busSettled {s : State} (h : s.BusSettled) (d : Nat) :
    Ensures (execSysPwroff d s) State.BusSettled := by
  refine ensures_onPowered fun _ _ _ => ensures_done ?_
  have hrelease : ((s.switchOff d).release (1 + d)).BusSettled :=
    (h.of_bus_eq (switchOff_local s d).bus).release _
  exact hrelease

theorem exec_busSettled {s : State} (h : s.BusSettled) (i : Instr) :
    Ensures (exec i s) State.BusSettled := by
  cases hi : reachesBus i with
  | false => exact fun t ht => h.of_bus_eq (exec_bus hi ht)
  | true =>
    rcases reachesBus_cases hi with rfl | ⟨d, rfl⟩ | ⟨p, l, v, rfl⟩ | ⟨d, v, rfl⟩ | ⟨d, v, rfl⟩
    · exact sysReset_busSettled s
    · exact sysPwroff_busSettled h d
    · exact ensures_onParticipant fun _ => (h.busSet p l v).completes _
    · exact ensures_onVia fun _ _ _ _ _ => (h.registerWrite d _).completes _
    · exact ensures_onVia fun _ _ _ _ _ => (h.registerWrite d _).completes _

/-- Settles O9: by what each operation that reaches the bus does to it. -/
theorem everyOperationKeepsBusConsistent : Obligations.EveryOperationKeepsBusConsistent :=
  fun i _ t hs hexec => exec_busSettled hs i t hexec

end Sys2Proof.Machine
end

section
/-! `BUS.SET`, `BUS.GET` and `BUS.NOTIFY` (R161, R162, R164, R165, R221): who hears a notification,
and the register change with `IRQ.UPDATE` that an active ATN edge makes of a VIA drive. -/

namespace Sys2Proof.Machine

set_option Elab.async false

/-! ### Who hears (R165) -/

theorem hears_drive (s : State) (d : Nat) :
    hears s (d + 1) = ((s.drives[d]?).map fun dr => dr.powered).getD false := by
  simp [hears]

theorem hears_drive_of_some {s : State} {d : Nat} {dr : Drive} (h : s.drives[d]? = some dr) :
    hears s (d + 1) = dr.powered := by
  simp [hears_drive, h]

/-- Power is a trait of a drive, so whoever keeps the traits keeps who hears. -/
theorem hears_of_traits_eq {s t : State} (h : t.traits = s.traits) (q : Nat) :
    hears t q = hears s q := by
  cases q with
  | zero => rfl
  | succ d =>
    have hget := congrArg (fun x : Traits => (x.drives[d]?).map DriveTraits.powered) h
    have hpow : ((t.drives[d]?).map fun dr => dr.powered) =
        (s.drives[d]?).map fun dr => dr.powered := by
      simpa [State.traits, Drive.traits, Function.comp_def] using hget
    rw [hears_drive, hears_drive, hpow]

/-! ### One notification (R165, R221) -/

theorem notify_of_none {s : State} {d : Nat} (h : s.drives[d]? = none) (l : Line) (v : Bool) :
    s.notify (d + 1) l v = s := by
  simp [State.notify, h]

theorem notify_of_off {s : State} {d : Nat} {dr : Drive} (hdr : s.drives[d]? = some dr)
    (hoff : dr.powered = false) (l : Line) (v : Bool) : s.notify (d + 1) l v = s := by
  simp [State.notify, hdr, hoff]

theorem notify_of_tpi {s : State} {d : Nat} {dr : Drive} {c : TpiChip} (h : TpiAt s d dr c)
    (l : Line) (v : Bool) : s.notify (d + 1) l v = s.emit (.busEdge (d + 1) l v) := by
  obtain ⟨hdr, hon, hctl⟩ := h
  simp [State.notify, hdr, hon, hctl]

theorem notify_of_via {s : State} {d : Nat} {dr : Drive} {b dd : ViaChip} (h : ViaAt s d dr b dd)
    (l : Line) (v : Bool) :
    s.notify (d + 1) l v =
      if l = .atn ∧ atnEdgeActive s.params b v then
        (s.emit (.busEdge (d + 1) l v)).setCa1 d .viab true
      else s.emit (.busEdge (d + 1) l v) := by
  obtain ⟨hdr, hon, hctl⟩ := h
  simp [State.notify, hdr, hon, hctl]

/-! ### The edge notifications among the events (R161, R165) -/

/-- The edge notifications emitted so far. -/
def State.busEdges (s : State) : List Event := s.events.filter Event.isBusEdge

@[simp] theorem busEdges_emit_busEdge (s : State) (q : Nat) (l : Line) (v : Bool) :
    (s.emit (.busEdge q l v)).busEdges = .busEdge q l v :: s.busEdges := rfl

/-- R277: `IRQ.UPDATE` emits no edge notification. -/
@[simp] theorem busEdges_irqUpdate (s : State) (d : Nat) :
    (s.irqUpdate d).busEdges = s.busEdges := by
  cases hdr : s.drives[d]? with
  | none => rw [irqUpdate_of_none hdr]
  | some dr =>
    simp only [State.busEdges, irqUpdate_of_some hdr]
    split
    · rfl
    · exact List.filter_cons_of_neg (by simp [Event.isBusEdge])

@[simp] theorem busEdges_setCa1 (s : State) (d : Nat) (c : ViaId) (v : Bool) :
    (s.setCa1 d c v).busEdges = s.busEdges :=
  busEdges_irqUpdate _ _

/-- R165: one notification is one event, if the participant hears. -/
theorem busEdges_notify (s : State) (q : Nat) (l : Line) (v : Bool) :
    (s.notify q l v).busEdges = (if hears s q then [.busEdge q l v] else []) ++ s.busEdges := by
  cases q with
  | zero => rfl
  | succ d =>
    cases hdr : s.drives[d]? with
    | none => simp [notify_of_none hdr, hears_drive, hdr]
    | some dr =>
      rw [hears_drive_of_some hdr]
      cases hon : dr.powered with
      | false => simp [notify_of_off hdr hon]
      | true =>
        cases hctl : dr.ctl with
        | tpi c => simp [notify_of_tpi ⟨hdr, hon, hctl⟩]
        | via b dd =>
          rw [notify_of_via ⟨hdr, hon, hctl⟩]
          split <;> simp

/-- R161: notifying participants in turn is one event for each that hears, in order. -/
theorem busEdges_foldl_notify (qs : List Nat) (s : State) (l : Line) (v : Bool) :
    (qs.foldl (fun s q => s.notify q l v) s).busEdges =
      ((qs.filter (hears s)).map fun q => Event.busEdge q l v).reverse ++ s.busEdges := by
  induction qs generalizing s with
  | nil => rfl
  | cons q qs ih =>
    have hhears : hears (s.notify q l v) = hears s :=
      funext (hears_of_traits_eq (notify_traits s q l v))
    rw [List.foldl_cons, ih, hhears, busEdges_notify]
    cases hq : hears s q <;> simp [hq]

theorem busEdges_notifyAll (s : State) (l : Line) (v : Bool) :
    (s.notifyAll l v).busEdges = edgeEvents s l v ++ s.busEdges :=
  busEdges_foldl_notify _ s l v

/-! ### `BUS.SET` (R161, R162) -/

theorem onParticipant_of_acts {s : State} {p : Nat} (hp : s.Acts p) (k : Out) :
    onParticipant s p k = k := by
  unfold onParticipant
  split
  · rfl
  · rename_i hne
    obtain ⟨dr, hdr, hon⟩ := hp.resolve_left hne
    simp [hdr, hon]

theorem busSet_line_get (s : State) (p : Nat) (l : Line) (v : Bool) :
    (s.busSet p l v).bus.line.get l = (s.setLatch p l v).bus.wiredAnd l := by
  rw [busSet_line, Lines.get_set_self]

/-- R161: with the line as it was, only the latch is written. -/
theorem busSet_of_line_eq {s : State} {p : Nat} {l : Line} {v : Bool}
    (h : (s.busSet p l v).bus.line.get l = s.bus.line.get l) :
    s.busSet p l v = s.setLatch p l v := by
  rcases busSet_cases s p l v with ⟨-, heq⟩ | ⟨hne, -⟩
  · exact heq
  · exact absurd ((busSet_line_get s p l v).symm.trans h) hne

/-- R161: the notifications of `BUS.SET` are those of what became of the line. -/
theorem busEdges_busSet (s : State) (p : Nat) (l : Line) (v : Bool) :
    (s.busSet p l v).busEdges =
      lineEvents s l (s.bus.line.get l) ((s.busSet p l v).bus.line.get l) ++ s.busEdges := by
  rw [busSet_line_get]
  rcases busSet_cases s p l v with ⟨hsame, heq⟩ | ⟨hedge, heq⟩
  · rw [heq, lineEvents, if_pos hsame]
    rfl
  · have hparts : (s.setLatch p l v).bus.latches.length = s.bus.latches.length := by simp
    rw [heq, lineEvents, if_neg hedge, busEdges_notifyAll, edgeEvents, edgeEvents,
      State.setLine_bus, hparts]
    rfl

/-- R161, R165: a line that changed reaches every drive. -/
theorem busSet_reaches {s : State} (hs : s.ShapeOk) {p : Nat} {l : Line} {v : Bool}
    (hedge : (s.busSet p l v).bus.line.get l ≠ s.bus.line.get l) {d : Nat} {dr : Drive}
    (hdr : s.drives[d]? = some dr) :
    ∃ dr', (s.busSet p l v).drives[d]? = some dr' ∧
      EdgeReaches s.params l ((s.busSet p l v).bus.line.get l) dr dr' := by
  obtain ⟨-, -, hparts⟩ := hs
  rw [busSet_line_get] at hedge ⊢
  rw [busSet_drives s p l v hparts, if_neg hedge]
  exact ⟨_, by simp [hdr], notified_edgeReaches ..⟩

theorem busSet_drives_length {s : State} (p : Nat) (l : Line) (v : Bool) :
    (s.busSet p l v).drives.length = s.drives.length := by
  have htraits := congrArg (fun x : Traits => x.drives.length) (busSet_traits s p l v)
  simpa [State.traits] using htraits

/-- Settles O40: `BUS.SET` writes the latch and the line, and notifies where the line changed. -/
theorem busSetResult : Obligations.BusSetResult := by
  intro s p l v hs hp
  refine ⟨(s.busSet p l v).returns .none, onParticipant_of_acts hp _, rfl, ?fixed,
    busSet_latches s p l v, ?line, busSet_drives_length p l v, busEdges_busSet s p l v, ?same,
    fun hedge d dr hdr => busSet_reaches hs hedge hdr⟩
  case fixed => exact ⟨busSet_params .., busSet_par .., busSet_requests .., busSet_draws ..⟩
  case line =>
    rw [State.returns_bus, busSet_line, busSet_latches]
    rfl
  case same =>
    intro hsame
    simp only [State.returns_drives, State.returns_events, State.returns_retryArmed,
      busSet_of_line_eq hsame]
    exact ⟨rfl, rfl, rfl⟩

/-- Settles O41: `BUS.GET` reads the stored line, which R163 makes the AND of the latches. -/
theorem busGetResult : Obligations.BusGetResult :=
  fun _ l => ⟨rfl, fun hbus => hbus l⟩

/-! ### A register change followed by `IRQ.UPDATE` (R277) -/

theorem updateIrq_sameMechanism (P : Params) (dr : Drive) (k : Controller) :
    SameMechanism dr (Drive.updateIrq P { dr with ctl := k }) :=
  ⟨rfl, rfl, rfl, rfl, rfl, rfl⟩

/-- What became of the drive: its controller changed by `f`, then the outputs recomputed. -/
theorem mapCtl_irqUpdate_drive {s : State} {d : Nat} {dr : Drive} (hdr : s.drives[d]? = some dr)
    (f : Controller → Controller) :
    ((s.mapCtl d f).irqUpdate d).drives[d]? =
      some (Drive.updateIrq s.params { dr with ctl := f dr.ctl }) := by
  simp [hdr]

theorem mapCtl_irqUpdate_only (s : State) (d : Nat) (f : Controller → Controller) :
    OnlyDrive d s ((s.mapCtl d f).irqUpdate d) where
  fixed := ⟨by simp, by simp, by simp, by simp⟩
  bus := by simp
  others := ⟨by simp, fun e he => by simp [he.symm]⟩

theorem mapCtl_irqUpdate_settled {s : State} {d : Nat} {dr : Drive} (hdr : s.drives[d]? = some dr)
    (f : Controller → Controller) :
    IrqSettled d s ((s.mapCtl d f).irqUpdate d) dr
      (Drive.updateIrq s.params { dr with ctl := f dr.ctl }) where
  current := updateIrq_current ..
  cpuIrq := rfl
  events := by
    rw [irqUpdate_of_some (mapCtl_drive hdr f)]
    rfl
  retry := irqUpdate_retrySettled (by simpa using lt_of_drive hdr)

/-- R277: a register change of a VIA drive that leaves the chips `b1` and `dd1`, and `IRQ.UPDATE`. -/
theorem mapCtl_irqUpdate_viaUpdated {s : State} {d : Nat} {dr : Drive} {b1 dd1 : ViaChip}
    {f : Controller → Controller} (hdr : s.drives[d]? = some dr) (hf : f dr.ctl = .via b1 dd1) :
    ViaUpdated d s ((s.mapCtl d f).irqUpdate d) dr b1 dd1 := by
  obtain ⟨b', dd', hchips, hb, hdd, hbRetry, hddRetry⟩ := updateIrq_via s.params b1 dd1
  refine ⟨_, b', dd', mapCtl_irqUpdate_drive hdr f, ?_, updateIrq_sameMechanism .., hb, hdd,
    hbRetry, hddRetry, mapCtl_irqUpdate_settled hdr f, mapCtl_irqUpdate_only s d f⟩
  rw [← hchips, ← hf]
  rfl

/-- The value an operation returns is no part of what `ViaUpdated` says. -/
theorem ViaUpdated.returns {d : Nat} {s t : State} {dr : Drive} {b1 dd1 : ViaChip}
    (h : ViaUpdated d s t dr b1 dd1) (r : Result) : ViaUpdated d s (t.returns r) dr b1 dd1 := by
  obtain ⟨dr', b', dd', hdr, hctl, hmech, hb, hdd, hbRetry, hddRetry, hsettled, honly⟩ := h
  obtain ⟨hcurrent, hcpu, hevents, hretry⟩ := hsettled
  obtain ⟨⟨hparams, hpar, hrequests, hdraws⟩, hbus, hothers⟩ := honly
  exact ⟨dr', b', dd', hdr, hctl, hmech, hb, hdd, hbRetry, hddRetry,
    ⟨hcurrent, hcpu, hevents, hretry⟩, ⟨⟨hparams, hpar, hrequests, hdraws⟩, hbus, hothers⟩⟩

/-! ### `BUS.NOTIFY` (R165, R221) -/

/-- Every drive is a participant (R160), and so is the host. -/
theorem execBusNotify_of_lt {s : State} (hs : s.ShapeOk) {q : Nat} (hq : q < s.drives.length + 1)
    (l : Line) (v : Bool) : execBusNotify q l v s = .next ((s.notify q l v).returns .none) := by
  obtain ⟨-, -, hparts⟩ := hs
  exact if_pos (hparts ▸ hq)

/-- Settles O42: by what `notify` does to a participant of each kind. -/
theorem notifyResult : Obligations.NotifyResult := by
  intro s l v hs
  refine ⟨execBusNotify_of_lt hs (Nat.succ_pos _) l v, fun d dr hdr => ?_⟩
  have hexec := execBusNotify_of_lt hs (Nat.succ_lt_succ (lt_of_drive hdr)) l v
  refine ⟨fun hoff => ?_, fun c hc => ?_, fun b dd hvia => ?_⟩
  · rw [notify_of_off hdr hoff] at hexec
    exact hexec
  · rw [notify_of_tpi hc] at hexec
    exact hexec
  · rw [notify_of_via hvia] at hexec
    simp only [activeAtn_iff]
    refine ⟨fun hquiet => ?_, fun hedge => ?_⟩
    · rw [if_neg hquiet] at hexec
      exact hexec
    · rw [if_pos hedge] at hexec
      refine ⟨_, hexec, rfl, ViaUpdated.returns ?_ _⟩
      have hflag : dr.ctl.mapVia .viab (fun c => { c with ca1Flag := true }) =
          .via { b with ca1Flag := true } dd := by
        rw [hvia.chips]
        rfl
      exact mapCtl_irqUpdate_viaUpdated (s := s.emit (.busEdge (d + 1) l v)) hdr hflag

end Sys2Proof.Machine
end

section
/-! The fast/parallel pair (R168 to R172), and that the pair and the bus do not see each other (R173):
every operation of the one commutes with any replacement of the other. -/

namespace Sys2Proof.Machine

set_option Elab.async false

/-! ### The pair (R168 to R172) -/

theorem execParWrdata_of_enabled {s : State} (h : s.par.enable = true) (x : Byte) :
    execParWrdata x s = .next { s with par := { s.par with data := x }, result := .none } := by
  rw [execParWrdata, if_pos h]
  rfl

theorem execParWrdata_of_disabled {s : State} (h : s.par.enable = false) (x : Byte) :
    execParWrdata x s = .next (s.returns .none) := by
  rw [execParWrdata, if_neg (Bool.eq_false_iff.1 h)]
  rfl

theorem execParWrack_of_enabled {s : State} (h : s.par.enable = true) (v : Bool) :
    execParWrack v s = .next { s with par := { s.par with ack := v }, result := .none } := by
  rw [execParWrack, if_pos h]
  rfl

theorem execParWrack_of_disabled {s : State} (h : s.par.enable = false) (v : Bool) :
    execParWrack v s = .next (s.returns .none) := by
  rw [execParWrack, if_neg (Bool.eq_false_iff.1 h)]
  rfl

theorem execParRddata_eq (s : State) :
    execParRddata s = .next (s.returns (.byte (if s.par.enable then s.par.data else 0xFF))) := rfl

theorem execParRdack_eq (s : State) :
    execParRdack s = .next (s.returns (.bit (if s.par.enable then s.par.ack else true))) := rfl

/-- Settles O43: each operation of the pair, enabled and disabled. -/
theorem parallelPairResult : Obligations.ParallelPairResult := by
  intro s v x
  refine ⟨rfl, fun hon => ?_, fun hoff => ?_⟩
  · refine ⟨execParWrdata_of_enabled hon x, ?_, execParWrack_of_enabled hon v, ?_⟩
    · simp [exec, execParRddata_eq, hon]
    · simp [exec, execParRdack_eq, hon]
  · refine ⟨execParWrdata_of_disabled hoff x, ?_, execParWrack_of_disabled hoff v, ?_⟩
    · simp [exec, execParRddata_eq, hoff]
    · simp [exec, execParRdack_eq, hoff]

/-! ### The bus does not see the pair (R173) -/

/-- The state with another pair. -/
def State.withPar (s : State) (par : Par) : State := { s with par := par }

theorem irqUpdate_withPar (s : State) (par : Par) (d : Nat) :
    (s.withPar par).irqUpdate d = (s.irqUpdate d).withPar par := by
  cases hdr : s.drives[d]? with
  | none => rw [irqUpdate_of_none hdr, irqUpdate_of_none (s := s.withPar par) hdr]
  | some dr =>
    rw [irqUpdate_of_some hdr, irqUpdate_of_some (s := s.withPar par) hdr]
    rfl

theorem setCa1_withPar (s : State) (par : Par) (d : Nat) (c : ViaId) (v : Bool) :
    (s.withPar par).setCa1 d c v = (s.setCa1 d c v).withPar par :=
  irqUpdate_withPar (s.mapCtl d _) par d

theorem notify_withPar (s : State) (par : Par) (q : Nat) (l : Line) (v : Bool) :
    (s.withPar par).notify q l v = (s.notify q l v).withPar par := by
  cases q with
  | zero => rfl
  | succ d =>
    cases hdr : s.drives[d]? with
    | none => rw [notify_of_none hdr, notify_of_none (s := s.withPar par) hdr]
    | some dr =>
      cases hon : dr.powered with
      | false => rw [notify_of_off hdr hon, notify_of_off (s := s.withPar par) hdr hon]
      | true =>
        cases hctl : dr.ctl with
        | tpi c =>
          rw [notify_of_tpi ⟨hdr, hon, hctl⟩, notify_of_tpi (s := s.withPar par) ⟨hdr, hon, hctl⟩]
          rfl
        | via b dd =>
          rw [notify_of_via ⟨hdr, hon, hctl⟩, notify_of_via (s := s.withPar par) ⟨hdr, hon, hctl⟩,
            apply_ite (State.withPar · par), ← setCa1_withPar]
          rfl

theorem notifyAll_withPar (s : State) (par : Par) (l : Line) (v : Bool) :
    (s.withPar par).notifyAll l v = (s.notifyAll l v).withPar par :=
  List.foldl_hom (State.withPar · par) fun s q => notify_withPar s par q l v

theorem busSet_withPar (s : State) (par : Par) (p : Nat) (l : Line) (v : Bool) :
    (s.withPar par).busSet p l v = (s.busSet p l v).withPar par := by
  rcases busSet_cases s p l v with ⟨hsame, heq⟩ | ⟨hedge, heq⟩
  · rw [heq]
    exact if_pos hsame
  · rw [heq, ← notifyAll_withPar]
    exact if_neg hedge

theorem done_withPar (s : State) (par : Par) (r : Result) :
    done (s.withPar par) r = mapOut (State.withPar · par) (done s r) := rfl

theorem onParticipant_mapOut {s t : State} (h : t.drives = s.drives) (f : State → State) (p : Nat)
    (k : Out) : onParticipant t p (mapOut f k) = mapOut f (onParticipant s p k) := by
  unfold onParticipant
  rw [h]
  split
  · rfl
  · split
    · rfl
    · split <;> rfl

theorem execBusSet_withPar (s : State) (par : Par) (p : Nat) (l : Line) (v : Bool) :
    execBusSet p l v (s.withPar par) = mapOut (State.withPar · par) (execBusSet p l v s) := by
  rw [execBusSet, execBusSet, busSet_withPar, done_withPar]
  exact onParticipant_mapOut rfl _ p _

theorem execBusNotify_withPar (s : State) (par : Par) (q : Nat) (l : Line) (v : Bool) :
    execBusNotify q l v (s.withPar par) = mapOut (State.withPar · par) (execBusNotify q l v s) := by
  rw [execBusNotify, execBusNotify, notify_withPar, done_withPar,
    apply_ite (mapOut (State.withPar · par))]
  rfl

/-! ### The pair does not see the bus or a drive (R173) -/

/-- The state with another bus and other drives. -/
def State.withBusAndDrives (s : State) (bus : Bus) (drives : List Drive) : State :=
  { s with bus := bus, drives := drives }

theorem execParWrdata_withBusAndDrives (s : State) (bus : Bus) (drives : List Drive) (x : Byte) :
    execParWrdata x (s.withBusAndDrives bus drives) =
      mapOut (State.withBusAndDrives · bus drives) (execParWrdata x s) := by
  cases hen : s.par.enable with
  | true =>
    rw [execParWrdata_of_enabled hen]
    exact execParWrdata_of_enabled (s := s.withBusAndDrives bus drives) hen x
  | false =>
    rw [execParWrdata_of_disabled hen]
    exact execParWrdata_of_disabled (s := s.withBusAndDrives bus drives) hen x

theorem execParWrack_withBusAndDrives (s : State) (bus : Bus) (drives : List Drive) (v : Bool) :
    execParWrack v (s.withBusAndDrives bus drives) =
      mapOut (State.withBusAndDrives · bus drives) (execParWrack v s) := by
  cases hen : s.par.enable with
  | true =>
    rw [execParWrack_of_enabled hen]
    exact execParWrack_of_enabled (s := s.withBusAndDrives bus drives) hen v
  | false =>
    rw [execParWrack_of_disabled hen]
    exact execParWrack_of_disabled (s := s.withBusAndDrives bus drives) hen v

/-- Settles O44: replacing the one before an operation of the other is replacing it after. -/
theorem pairIndependentOfBus : Obligations.PairIndependentOfBus := by
  refine ⟨fun s par p l v => ⟨execBusSet_withPar s par p l v, rfl, execBusNotify_withPar s par p l v⟩,
    fun s bus drives v x => ?_⟩
  simp only [List.forall_mem_cons, List.not_mem_nil, false_implies, implies_true, and_true]
  exact ⟨rfl, execParWrdata_withBusAndDrives s bus drives x, rfl,
    execParWrack_withBusAndDrives s bus drives v, rfl⟩

end Sys2Proof.Machine
end

section
/-! The ready pulses among the events (R195): `ready` emits one and no other shared operation any, so
that an operation emits the pulses of `pulsesOf` and no more. -/

namespace Sys2Proof.Machine

set_option Elab.async false

/-- The event is a ready pulse. -/
def Event.isReadyPulse : Event → Bool
  | .readyPulse _ => true
  | _ => false

/-- The ready pulses emitted so far. -/
def State.readyPulses (s : State) : List Event := s.events.filter Event.isReadyPulse

/-- The ready pulses an operation emits (R195). -/
def pulsesOf : Instr → List Event
  | .mechTick d => [.readyPulse d]
  | _ => []

theorem count_readyPulse (s : State) (d : Nat) :
    s.events.count (.readyPulse d) = s.readyPulses.count (.readyPulse d) :=
  (List.count_filter rfl).symm

theorem count_pulsesOf (i : Instr) (d : Nat) :
    (pulsesOf i).count (.readyPulse d) = if i = .mechTick d then 1 else 0 := by
  cases i with
  | mechTick e => simp [pulsesOf, List.count_singleton]
  | _ => rfl

/-! ### What the shared operations emit -/

/-- Pulses are read off the events alone. -/
theorem readyPulses_of_events_eq {s t : State} (h : t.events = s.events) :
    t.readyPulses = s.readyPulses := by
  rw [State.readyPulses, h, State.readyPulses]

theorem readyPulses_emit_of_not {e : Event} (he : e.isReadyPulse = false) (s : State) :
    (s.emit e).readyPulses = s.readyPulses :=
  List.filter_cons_of_neg (by simp [he])

@[simp] theorem mapDrive_readyPulses (s : State) (d : Nat) (f : Drive → Drive) :
    (s.mapDrive d f).readyPulses = s.readyPulses := rfl

@[simp] theorem mapCtl_readyPulses (s : State) (d : Nat) (f : Controller → Controller) :
    (s.mapCtl d f).readyPulses = s.readyPulses := rfl

@[simp] theorem mapTpi_readyPulses (s : State) (d : Nat) (f : TpiChip → TpiChip) :
    (s.mapTpi d f).readyPulses = s.readyPulses := rfl

@[simp] theorem recountRetry_readyPulses (s : State) :
    s.recountRetry.readyPulses = s.readyPulses := rfl

/-- R277: `IRQ.UPDATE` emits no ready pulse. -/
@[simp] theorem irqUpdate_readyPulses (s : State) (d : Nat) :
    (s.irqUpdate d).readyPulses = s.readyPulses := by
  cases hdr : s.drives[d]? with
  | none => rw [irqUpdate_of_none hdr]
  | some dr =>
    simp only [State.readyPulses, irqUpdate_of_some hdr]
    split
    · rfl
    · exact List.filter_cons_of_neg (by simp [Event.isReadyPulse])

@[simp] theorem setCa1_readyPulses (s : State) (d : Nat) (c : ViaId) (v : Bool) :
    (s.setCa1 d c v).readyPulses = s.readyPulses :=
  irqUpdate_readyPulses ..

@[simp] theorem chipReset_readyPulses (s : State) (d : Nat) :
    (s.chipReset d).readyPulses = s.readyPulses :=
  irqUpdate_readyPulses ..

@[simp] theorem notify_readyPulses (s : State) (q : Nat) (l : Line) (v : Bool) :
    (s.notify q l v).readyPulses = s.readyPulses := by
  have hedge : (s.emit (.busEdge q l v)).readyPulses = s.readyPulses :=
    readyPulses_emit_of_not rfl s
  cases q with
  | zero => exact hedge
  | succ d =>
    cases hdr : s.drives[d]? with
    | none => rw [notify_of_none hdr]
    | some dr =>
      cases hon : dr.powered with
      | false => rw [notify_of_off hdr hon]
      | true =>
        cases hctl : dr.ctl with
        | tpi c => rw [notify_of_tpi ⟨hdr, hon, hctl⟩, hedge]
        | via b dd =>
          rw [notify_of_via ⟨hdr, hon, hctl⟩]
          split <;> simp [hedge]

@[simp] theorem notifyAll_readyPulses (s : State) (l : Line) (v : Bool) :
    (s.notifyAll l v).readyPulses = s.readyPulses :=
  List.foldlRecOn _ _ (motive := fun t : State => t.readyPulses = s.readyPulses) rfl
    fun t ht q _ => (notify_readyPulses t q l v).trans ht

@[simp] theorem busSet_readyPulses (s : State) (p : Nat) (l : Line) (v : Bool) :
    (s.busSet p l v).readyPulses = s.readyPulses := by
  rcases busSet_cases s p l v with ⟨-, heq⟩ | ⟨-, heq⟩
  · rw [heq]
    rfl
  · rw [heq, notifyAll_readyPulses]
    rfl

@[simp] theorem applyBusOutputs_readyPulses (s : State) (d : Nat) :
    (s.applyBusOutputs d).readyPulses = s.readyPulses := by
  rcases applyBusOutputs_cases s d with heq | ⟨v, w, heq⟩ <;> simp [heq]

@[simp] theorem applyControl_readyPulses (s : State) (d : Nat) :
    (s.applyControl d).readyPulses = s.readyPulses := by
  unfold State.applyControl
  split
  · rfl
  · split <;> rfl

@[simp] theorem applyPortB_readyPulses (s : State) (d : Nat) (c : ViaId) :
    (applyPortB s d c).readyPulses = s.readyPulses := by
  cases c <;> simp [applyPortB]

theorem resetDrive_readyPulses (s : State) (d : Nat) :
    (s.resetDrive d).readyPulses = s.readyPulses := by
  simp [State.resetDrive]

theorem foldl_emit_delivered_readyPulses (s : State) (d : Nat) (cs : List ChipId) :
    (cs.foldl (fun s c => s.emit (.irqDelivered d c)) s).readyPulses = s.readyPulses :=
  List.foldlRecOn _ _ (motive := fun t : State => t.readyPulses = s.readyPulses) rfl
    fun t ht _ _ => (readyPulses_emit_of_not rfl t).trans ht

theorem retryDrive_readyPulses (s : State) (d : Nat) :
    (s.retryDrive d).readyPulses = s.readyPulses := by
  unfold State.retryDrive
  split
  · rfl
  · split
    · rw [mapCtl_readyPulses, foldl_emit_delivered_readyPulses]
    · rfl

/-- R195: the one shared operation that emits a pulse. -/
theorem ready_readyPulses (s : State) (d : Nat) :
    (s.ready d).readyPulses = .readyPulse d :: s.readyPulses := by
  unfold State.ready
  split
  · rfl
  · split
    · exact setCa1_readyPulses ..
    · rfl

theorem tick_readyPulses (s : State) (d : Nat) :
    (s.tick d).readyPulses = .readyPulse d :: s.readyPulses :=
  ready_readyPulses ..

/-! ### What an operation emits -/

/-- Operation `i` added its pulses to the events. -/
def Pulses (i : Instr) (s t : State) : Prop := t.readyPulses = pulsesOf i ++ s.readyPulses

theorem pulses_done {i : Instr} {s t : State} (h : t.readyPulses = pulsesOf i ++ s.readyPulses)
    (r : Result) : Ensures (done t r) (Pulses i s) :=
  ensures_done h

theorem mechTick_pulses (d : Nat) (s : State) :
    Ensures (execMechTick d s) (Pulses (.mechTick d) s) := by
  refine ensures_onDrive fun dr _ => ?_
  split
  · exact pulses_done (tick_readyPulses s d) _
  · exact ensures_refused _ _

theorem sysReset_pulses (s : State) : Ensures (execSysReset s) (Pulses .sysReset s) := by
  refine pulses_done ?_ _
  exact List.foldlRecOn _ _ (motive := fun t : State => t.readyPulses = s.readyPulses) rfl
    fun t ht d _ => (resetDrive_readyPulses t d).trans ht

theorem sysPwron_pulses (d : Nat) (s : State) :
    Ensures (execSysPwron d s) (Pulses (.sysPwron d) s) := by
  refine ensures_onDrive fun dr _ => ?_
  split
  · exact ensures_refused _ _
  · exact pulses_done (chipReset_readyPulses _ d) _

theorem sysPwroff_pulses (d : Nat) (s : State) :
    Ensures (execSysPwroff d s) (Pulses (.sysPwroff d) s) := by
  refine ensures_onPowered fun _ _ _ => pulses_done ?_ _
  simp [pulsesOf]

theorem sysMount_pulses (d : Nat) (f : Format) (bytes : List Host.Cell) (len : Nat) (wp : Bool)
    (s : State) :
    Ensures (execSysMount d f bytes len wp s) (Pulses (.sysMount d f bytes len wp) s) := by
  refine ensures_onDrive fun dr _ => ?_
  split
  · exact ensures_refused _ _
  · exact pulses_done rfl _

theorem irqRetry_pulses (s : State) : Ensures (execIrqRetry s) (Pulses .irqRetry s) := by
  unfold execIrqRetry
  split
  · refine pulses_done ?_ _
    exact List.foldlRecOn _ _ (motive := fun t : State => t.readyPulses = s.readyPulses) rfl
      fun t ht d _ => (retryDrive_readyPulses t d).trans ht
  · exact ensures_refused _ _

theorem tpiRdPc_pulses (d : Nat) (s : State) :
    Ensures (execTpiRdPc d s) (Pulses (.tpiRdPc d) s) := by
  refine ensures_onTpi fun dr t _ _ => ?_
  dsimp only
  split <;> exact pulses_done rfl _

theorem tpiIrqin_pulses (d : Nat) (n : Fin 5) (level : Bool) (s : State) :
    Ensures (execTpiIrqin d n level s) (Pulses (.tpiIrqin d n level) s) := by
  refine ensures_onTpi fun dr t _ _ => pulses_done ?_ _
  split <;> simp [pulsesOf]

theorem busNotify_pulses (q : Nat) (l : Line) (v : Bool) (s : State) :
    Ensures (execBusNotify q l v s) (Pulses (.busNotify q l v) s) := by
  unfold execBusNotify
  split
  · exact pulses_done (notify_readyPulses ..) _
  · exact ensures_refused _ _

theorem parWrdata_pulses (v : Byte) (s : State) :
    Ensures (execParWrdata v s) (Pulses (.parWrdata v) s) := by
  refine pulses_done ?_ _
  split <;> rfl

theorem parWrack_pulses (v : Bool) (s : State) :
    Ensures (execParWrack v s) (Pulses (.parWrack v) s) := by
  refine pulses_done ?_ _
  split <;> rfl

theorem dskOffset_pulses (table : List Nat) (track sector : Nat) (s : State) :
    Ensures (execDskOffset table track sector s) (Pulses (.dskOffset table track sector) s) := by
  unfold execDskOffset
  split
  · exact ensures_refused _ _
  · exact pulses_done rfl _

/-- Every operation emits the pulses of `pulsesOf`. -/
theorem exec_pulses (i : Instr) (s : State) : Ensures (exec i s) (Pulses i s) := by
  cases i with
  | mechTick d => exact mechTick_pulses d s
  | sysReset => exact sysReset_pulses s
  | sysPwron d => exact sysPwron_pulses d s
  | sysPwroff d => exact sysPwroff_pulses d s
  | sysMount d f bytes len wp => exact sysMount_pulses d f bytes len wp s
  | sysUnmount d => exact ensures_onDrive fun _ _ => pulses_done rfl _
  | irqRetry => exact irqRetry_pulses s
  | mechCtrl d | mechRegen d | mechStep d =>
    exact ensures_onPowered fun _ _ _ => pulses_done rfl _
  | irqUpdate d => exact ensures_onPowered fun _ _ _ => pulses_done (irqUpdate_readyPulses s d) _
  | viabRdPb d | viadRdPb d | viaRdDdrb d | viaRdDdra d | viaRdCt d | viaWrDdra d =>
    exact ensures_onVia fun _ _ _ _ _ => pulses_done rfl _
  | viabRdPa d | viabWrPb d | viabWrPa d | viadRdPa d | viadWrPb d | viadWrPa d | viaWrDdrb d
  | viaWrCt d | viaOtherirq d =>
    exact ensures_onVia fun _ _ _ _ _ => pulses_done (by simp [pulsesOf]) _
  | tpiRdPa d | tpiRdPb d | tpiRdDdra d | tpiRdDdrb d | tpiRdDdrc d | tpiRdCr d | tpiWrPa d
  | tpiWrPb d | tpiWrPc d | tpiWrDdra d | tpiWrDdrb d | tpiWrDdrc d | tpiWrAir d | tpiHostwr d =>
    exact ensures_onTpi fun _ _ _ _ => pulses_done rfl _
  | tpiRdAir d | tpiWrCr d =>
    exact ensures_onTpi fun _ _ _ _ => pulses_done (irqUpdate_readyPulses ..) _
  | tpiRdPc d => exact tpiRdPc_pulses d s
  | tpiIrqin d n level => exact tpiIrqin_pulses d n level s
  | tpiHostrd d => exact ensures_onTpiDrive fun _ _ _ => pulses_done rfl _
  | busSet p l v =>
    exact ensures_onParticipant fun _ => pulses_done (busSet_readyPulses s p l v) _
  | busNotify q l v => exact busNotify_pulses q l v s
  | parWrdata v => exact parWrdata_pulses v s
  | parWrack v => exact parWrack_pulses v s
  | dskOffset table track sector => exact dskOffset_pulses table track sector s
  | busGet | parEnable | parRddata | parRdack | gcrEnc4 | gcrDec5 | gcrEncsec | gcrDechdr
  | gcrDecdata | dskBuild => exact pulses_done rfl _

/-- Settles O14: of the pulses of `pulsesOf`, a tick's is the only one. -/
theorem oneReadyPulsePerTick : Obligations.OneReadyPulsePerTick := by
  intro i s t d hexec
  have hpulses : t.readyPulses = pulsesOf i ++ s.readyPulses := exec_pulses i s t hexec
  rw [count_readyPulse, count_readyPulse, hpulses, List.count_append, count_pulsesOf, Nat.add_comm]

end Sys2Proof.Machine
end

section
/-! The buffer of the sector under the head of a drive with a sound image (R135), as a mount, a phase
write and the end of a turn fill it. -/

namespace Sys2Proof.Machine

set_option Elab.async false

/-- R135, for a head on a track of a sound image. -/
theorem regen_of_sound_image {P : Params} {dr : Drive} {im : Image} (himg : dr.img = some im)
    (him : im.Sound P) (hlow : 2 ≤ dr.mech.ht) (hhigh : dr.mech.ht ≤ 2 * im.maxTrack) :
    dr.regen P = { dr with buf := sectorBuffer P im (dr.mech.ht / 2) dr.mech.sector } := by
  rw [him.maxTrack] at hhigh
  refine regen_of_image P himg ?_ ?_
  · unfold Drive.curTrack
    omega
  · rw [him.table, buildTable_length]
    unfold Drive.curTrack
    omega

end Sys2Proof.Machine
end

section
/-! Mounting and unmounting (R192, R193): what the buffer of a mount reads as, and the drive that each
of the two leaves. -/

namespace Sys2Proof.Machine

set_option Elab.async false

/-! ### The bytes of a mounted image (R63, R64, R192) -/

theorem cellAt_append_singleton (cells : List Host.Cell) (c : Host.Cell) (a : Nat) :
    cellAt (cells ++ [c]) a = if c.1 = a then c.2 else cellAt cells a := by
  by_cases h : c.1 = a <;> simp [cellAt, h]

theorem Memory.ofCells_append_singleton (cells : List Host.Cell) (c : Host.Cell) (len : Nat) :
    Memory.ofCells (cells ++ [c]) len =
      if c.1 < len then Memory.write (Memory.ofCells cells len) c.1 c.2
      else Memory.ofCells cells len := by
  simp [Memory.ofCells]

/-- Inside the buffer an address reads as the last pair of that address says. -/
theorem Memory.read_ofCells (cells : List Host.Cell) {len a : Nat} (ha : a < len) :
    Memory.read (Memory.ofCells cells len) a = cellAt cells a := by
  induction cells using List.reverseRecOn with
  | nil => rfl
  | append_singleton cells c ih =>
    rw [cellAt_append_singleton, Memory.ofCells_append_singleton]
    by_cases hc : c.1 = a
    · rw [if_pos (hc ▸ ha), if_pos hc, hc]
      exact Memory.read_write_self (Memory.ofCells_wf cells len).1 a c.2
    · rw [if_neg hc, ← ih]
      split
      · exact Memory.read_write_ne _ _ (Ne.symm hc)
      · rfl

theorem mountImage_read (P : Params) (f : Format) (cells : List Host.Cell) (len a : Nat) :
    (mountImage P f cells len).read a = if a < len then cellAt cells a else 0 := by
  by_cases ha : a < len
  · exact (if_pos ha).trans ((Memory.read_ofCells cells ha).trans (if_pos ha).symm)
  · exact (if_neg ha).trans (if_neg ha).symm

/-! ### `SYS.MOUNT` (R192) -/

/-- R192: the drive after a mount, its buffer that of sector 0 on the track of the clamped head. -/
theorem mount_of_sound {P : Params} (hP : P.wf = true) {dr : Drive} (h : dr.Sound P) {im : Image}
    (him : im.Sound P) (wp : Bool) :
    let ht := min dr.mech.ht (2 * im.maxTrack)
    dr.mount P im wp = { dr with
      img := some im, wp := wp, buf := sectorBuffer P im (ht / 2) 0
      mech := { dr.mech with ht := ht, sector := 0, pos := 0, ffcount := 0, sync := false } } := by
  have hlow := h.mech.headLow
  have htracks := maxTrack_pos hP im.format
  rw [← him.maxTrack] at htracks
  exact regen_of_sound_image (im := im) rfl him (show 2 ≤ min _ _ by omega) (min_le_right _ _)

theorem execSysMount_of_empty {s : State} {d : Nat} {dr : Drive} (hdr : s.drives[d]? = some dr)
    (hnone : dr.img = none) (f : Format) (cells : List Host.Cell) (len : Nat) (wp : Bool) :
    execSysMount d f cells len wp s = .next ((s.mapDrive d fun dr =>
      dr.mount s.params (mountImage s.params f cells len) wp).returns .none) := by
  rw [execSysMount, onDrive_of_some hdr, hnone]
  rfl

theorem execSysMount_of_mounted {s : State} {d : Nat} {dr : Drive} (hdr : s.drives[d]? = some dr)
    {im : Image} (him : dr.img = some im) (f : Format) (cells : List Host.Cell) (len : Nat)
    (wp : Bool) : execSysMount d f cells len wp s = .refused (.imageMounted d) := by
  rw [execSysMount, onDrive_of_some hdr, him]

/-- Settles O35: the image is `mountImage`, the drive that of `mount_of_sound`. -/
theorem mountResult : Obligations.MountResult := by
  intro s d dr f cells len wp hs hdr
  refine ⟨fun hnone => ?_, fun hsome => ?_⟩
  · have hbecomes := driveBecomes_mapDrive hdr
      (fun dr => dr.mount s.params (mountImage s.params f cells len) wp) .none
    rw [mount_of_sound hs.params (hs.drive hdr) (mountImage_sound s.params f cells len) wp]
      at hbecomes
    exact ⟨_, mountImage s.params f cells len, execSysMount_of_empty hdr hnone f cells len wp, rfl,
      rfl, rfl, rfl, mountImage_read _ _ _ _, rfl, rfl, hbecomes⟩
  · obtain ⟨im, him⟩ := Option.ne_none_iff_exists'.1 hsome
    exact execSysMount_of_mounted hdr him f cells len wp

/-! ### `SYS.UNMOUNT` (R193, R280) -/

theorem clearRetry_sameRegs (k : Controller) : k.SameRegs k.clearRetry := by
  cases k with
  | via b dd => exact ⟨⟨rfl, rfl, rfl, rfl, rfl, rfl, rfl⟩, ⟨rfl, rfl, rfl, rfl, rfl, rfl, rfl⟩⟩
  | tpi t => exact ⟨rfl, rfl, rfl, rfl, rfl, rfl, rfl, rfl, rfl, rfl, rfl⟩

/-- R280: no chip waits any more, and each requests as before. -/
theorem clearRetry_asks_waits (k : Controller) (c : ChipId) :
    k.clearRetry.asks c = k.asks c ∧ k.clearRetry.waits c = false := by
  cases k <;> cases c <;> exact ⟨rfl, rfl⟩

/-- Settles O36: the drive becomes `Drive.unmount`, then the retry timer is recounted. -/
theorem unmountResult : Obligations.UnmountResult := by
  intro s d dr hdr
  obtain ⟨⟨⟨hparams, hpar, hrequests, hdraws⟩, hbus, hothers⟩, hdrive, hevents, -, -⟩ :=
    driveBecomes_mapDrive hdr (fun dr => dr.unmount s.params) .none
  exact ⟨((s.mapDrive d fun dr => dr.unmount s.params).recountRetry).returns .none,
    dr.unmount s.params, onDrive_of_some hdr _,
    ⟨⟨hparams, hpar, hrequests, hdraws⟩, hbus, hothers⟩, hevents, rfl, hdrive, rfl, rfl,
    clearRetry_sameRegs dr.ctl, clearRetry_asks_waits dr.ctl⟩

end Sys2Proof.Machine
end

section
/-! `MECH.STEP` and `MECH.CTRL` (R186 to R189, R194): what one phase write makes of a drive, a run of
phase writes, and the control byte. -/

namespace Sys2Proof.Machine

set_option Elab.async false

/-! ### One phase write (R187, R188) -/

theorem steppedHt_eq_headAfter (maxTrack ht : Nat) (old new : Bits2) :
    steppedHt maxTrack ht old new = headAfter maxTrack ht old new := by
  have hup : new = old + 1 ↔ new.toNat = (old.toNat + 1) % 4 := by
    rw [← BitVec.toNat_inj]
    rfl
  have hdown : new = old + 3 ↔ new.toNat = (old.toNat + 3) % 4 := by
    rw [← BitVec.toNat_inj]
    rfl
  simp only [steppedHt, headAfter, hup, hdown]

theorem moveHead_of_same_track (P : Params) {dr : Drive} {ht : Nat}
    (h : ht / 2 = dr.mech.ht / 2) : dr.moveHead P ht = dr.withHt ht :=
  if_pos h

theorem moveHead_of_no_image (P : Params) {dr : Drive} (h : dr.img = none) (ht : Nat) :
    dr.moveHead P ht = dr.withHt ht := by
  unfold Drive.moveHead
  rw [h, regen_of_no_image P (dr := dr.withHt ht) h, ite_self]

theorem moveHead_of_image {P : Params} {dr : Drive} {im : Image} (himg : dr.img = some im)
    (him : im.Sound P) {ht : Nat} (hne : ht / 2 ≠ dr.mech.ht / 2) (hlow : 2 ≤ ht)
    (hhigh : ht ≤ 2 * im.maxTrack) :
    let sector := dr.mech.sector % sptOf P im.format (ht / 2)
    dr.moveHead P ht = { dr with
      buf := sectorBuffer P im (ht / 2) sector
      mech := { dr.mech with ht := ht, sector := sector } } := by
  have hmove : dr.moveHead P ht =
      ((dr.withHt ht).withSector (dr.mech.sector % sptOf P im.format (ht / 2))).regen P := by
    rw [Drive.moveHead, if_neg hne, himg]
  exact hmove.trans
    (regen_of_sound_image (dr := (dr.withHt ht).withSector _) himg him hlow hhigh)

theorem moveHead_ht_phase (P : Params) (dr : Drive) (ht : Nat) :
    (dr.moveHead P ht).mech.ht = ht ∧ (dr.moveHead P ht).mech.phase = dr.mech.phase := by
  unfold Drive.moveHead
  split
  · exact ⟨rfl, rfl⟩
  · split <;> simp

theorem execMechStep_of_on {s : State} {d : Nat} {dr : Drive} (hdr : s.drives[d]? = some dr)
    (hon : dr.powered = true) (new : Bits2) :
    execMechStep d new s = .next ((s.mapDrive d fun dr => dr.step s.params new).returns .none) :=
  onPowered_of_on hdr hon _

/-- Settles O31: by the three cases of `moveHead`, the head of a sound drive staying in its range. -/
theorem stepResult : Obligations.StepResult := by
  intro s d dr new hs hdr P ht moved
  refine ⟨fun hoff => onPowered_of_off hdr hoff _,
    fun hon => ⟨_, execMechStep_of_on hdr hon new, ?_⟩⟩
  have hbecomes := driveBecomes_mapDrive hdr (fun dr => dr.step s.params new) .none
  have hsound := hs.drive hdr
  obtain ⟨hlow, hhigh⟩ : 2 ≤ ht ∧ ht ≤ 2 * dr.maxTrack P := by
    rw [show ht = _ from (steppedHt_eq_headAfter ..).symm]
    exact steppedHt_range hsound.mech.headLow hsound.mech.headHigh
  have hstep : dr.step P new = (dr.withPhase new).moveHead P ht :=
    congrArg _ (steppedHt_eq_headAfter ..)
  convert hbecomes using 1
  rw [hstep]
  split
  case isTrue hsame => exact (moveHead_of_same_track P (dr := dr.withPhase new) hsame).symm
  case isFalse hne =>
    split
    case _ hnone => exact (moveHead_of_no_image P (dr := dr.withPhase new) hnone ht).symm
    case _ im him =>
      rw [Drive.maxTrack, him] at hhigh
      exact (moveHead_of_image (dr := dr.withPhase new) him (hsound.image im him) hne hlow
        hhigh).symm

/-! ### A run of phase writes (R194) -/

theorem Drive.step_ht (P : Params) (dr : Drive) (new : Bits2) :
    (dr.step P new).mech.ht = steppedHt (dr.maxTrack P) dr.mech.ht dr.mech.phase new :=
  (moveHead_ht_phase ..).1

theorem Drive.step_phase (P : Params) (dr : Drive) (new : Bits2) :
    (dr.step P new).mech.phase = new :=
  (moveHead_ht_phase ..).2

theorem Drive.step_maxTrack (P : Params) (dr : Drive) (new : Bits2) :
    (dr.step P new).maxTrack P = dr.maxTrack P := by
  rw [Drive.maxTrack, Drive.step_img, Drive.maxTrack]

theorem Drive.step_powered (P : Params) (dr : Drive) (new : Bits2) :
    (dr.step P new).powered = dr.powered :=
  congrArg DriveTraits.powered (Drive.step_traits ..)

theorem steppedHt_forward (maxTrack ht : Nat) (old : Bits2) :
    steppedHt maxTrack ht old (old + 1) = min (ht + 1) (2 * maxTrack) :=
  if_pos rfl

theorem steppedHt_backward (maxTrack ht : Nat) (old : Bits2) :
    steppedHt maxTrack ht old (old + 3) = max (ht - 1) 2 := by
  have hne : old + 3 ≠ old + 1 := by simp
  rw [steppedHt, if_neg hne, if_pos rfl]

theorem steppedHt_illegal (maxTrack ht : Nat) {old new : Bits2} (h : new = old ∨ new = old + 2) :
    steppedHt maxTrack ht old new = ht := by
  have hne : new ≠ old + 1 ∧ new ≠ old + 3 := by
    rcases h with rfl | rfl <;> simp
  rw [steppedHt, if_neg hne.1, if_neg hne.2]

/-- A run of writes of the phases `phase 1`, `phase 2`, ... takes the head along `ht`, where every
single write does. -/
theorem foldl_step_along {P : Params} {dr : Drive} {phase : Nat → Bits2} {ht : Nat → Nat}
    (hphase : dr.mech.phase = phase 0) (hht : dr.mech.ht = ht 0)
    (hstep : ∀ k, steppedHt (dr.maxTrack P) (ht k) (phase k) (phase (k + 1)) = ht (k + 1)) (n : Nat) :
    let dr' := ((List.range n).map fun k => phase (k + 1)).foldl (Drive.step P) dr
    dr'.mech.phase = phase n ∧ dr'.mech.ht = ht n ∧ dr'.maxTrack P = dr.maxTrack P := by
  induction n with
  | zero => exact ⟨hphase, hht, rfl⟩
  | succ n ih =>
    obtain ⟨ihphase, ihht, ihmax⟩ := ih
    simp only [List.range_succ, List.map_append, List.foldl_append, List.map_cons, List.map_nil,
      List.foldl_cons, List.foldl_nil]
    refine ⟨Drive.step_phase .., ?_, (Drive.step_maxTrack ..).trans ihmax⟩
    rw [Drive.step_ht, ihphase, ihht, ihmax, hstep]

/-- Phase writes of a powered drive, one operation after another. -/
theorem execAll_mechSteps {s : State} {d : Nat} {dr : Drive} (hdr : s.drives[d]? = some dr)
    (hon : dr.powered = true) (phases : List Bits2) :
    ∃ t, execAll (phases.map (.mechStep d)) s = .next t ∧
      t.drives[d]? = some (phases.foldl (Drive.step s.params) dr) := by
  induction phases generalizing s dr with
  | nil => exact ⟨s, rfl, hdr⟩
  | cons new phases ih =>
    have hnext : exec (.mechStep d new) s = _ := execMechStep_of_on hdr hon new
    obtain ⟨t, hexec, ht⟩ := ih (driveBecomes_mapDrive hdr (Drive.step s.params · new) .none).drive
      ((Drive.step_powered ..).trans hon)
    exact ⟨t, by rw [List.map_cons, execAll, hnext]; exact hexec, ht⟩

/-- The head after `n` phase writes that take it along `ht`. -/
theorem execAll_mechSteps_along {s : State} {d : Nat} {dr : Drive} (hdr : s.drives[d]? = some dr)
    (hon : dr.powered = true) {phase : Nat → Bits2} {ht : Nat → Nat}
    (hphase : dr.mech.phase = phase 0) (hht : dr.mech.ht = ht 0)
    (hstep : ∀ k, steppedHt (dr.maxTrack s.params) (ht k) (phase k) (phase (k + 1)) = ht (k + 1))
    (n : Nat) :
    ∃ t dr', execAll ((List.range n).map fun k => .mechStep d (phase (k + 1))) s = .next t ∧
      t.drives[d]? = some dr' ∧ dr'.mech.ht = ht n := by
  obtain ⟨t, hexec, ht⟩ := execAll_mechSteps hdr hon ((List.range n).map fun k => phase (k + 1))
  rw [List.map_map] at hexec
  obtain ⟨-, hhead, -⟩ := foldl_step_along hphase hht hstep n
  exact ⟨t, _, hexec, ht, hhead⟩

/-- Settles O32: forward writes take the head along `min (ht + k) (2 * maxTrack)`, backward ones along
`max (ht - k) 2`, and the range of a sound drive's head makes both start at the head. -/
theorem stepperLaw : Obligations.StepperLaw := by
  intro s d dr n hs hdr hon
  have hlow := (hs.drive hdr).mech.headLow
  have hhigh := (hs.drive hdr).mech.headHigh
  refine ⟨?forward, ?backward, fun new hnew => ?illegal⟩
  case forward =>
    refine execAll_mechSteps_along hdr hon
      (phase := fun k => dr.mech.phase + BitVec.ofNat 2 k)
      (ht := fun k => min (dr.mech.ht + k) (2 * dr.maxTrack s.params)) (by simp) (by omega)
      (fun k => ?_) n
    have hnext : dr.mech.phase + BitVec.ofNat 2 (k + 1) = dr.mech.phase + BitVec.ofNat 2 k + 1 := by
      rw [BitVec.ofNat_add, ← BitVec.add_assoc]
      rfl
    simp only [hnext, steppedHt_forward]
    omega
  case backward =>
    refine execAll_mechSteps_along hdr hon
      (phase := fun k => dr.mech.phase - BitVec.ofNat 2 k)
      (ht := fun k => max (dr.mech.ht - k) 2) (by simp) (by omega) (fun k => ?_) n
    have hnext : dr.mech.phase - BitVec.ofNat 2 (k + 1) = dr.mech.phase - BitVec.ofNat 2 k + 3 := by
      bv_omega
    simp only [hnext, steppedHt_backward]
    omega
  case illegal =>
    exact ⟨_, _, execMechStep_of_on hdr hon new, (driveBecomes_mapDrive hdr _ .none).drive,
      (Drive.step_ht ..).trans (steppedHt_illegal _ _ hnew)⟩

/-! ### The control byte (R102, R186, R189) -/

/-- R102: where the fields of the control byte stand by default. -/
theorem ctrl_fields {P : Params} (hP : P.pinmapViad = defaultPinmapViad) (c : Byte) :
    ctrlStep P c = c.extractLsb' 0 2 ∧ ctrlMotor P c = c.getLsbD 2 ∧
      ctrlFreq P c = c.extractLsb' 5 2 := by
  unfold ctrlStep ctrlMotor ctrlFreq
  rw [hP]
  revert c
  decide

theorem Drive.step_motor_zone (P : Params) (dr : Drive) (new : Bits2) :
    (dr.step P new).mech.motor = dr.mech.motor ∧ (dr.step P new).mech.zone = dr.mech.zone := by
  obtain ⟨-, -, -, -, -, -, hmotor, -, -, hzone⟩ := moveHead_rest P (dr.withPhase new)
    (steppedHt (dr.maxTrack P) dr.mech.ht dr.mech.phase new)
  exact ⟨hmotor, hzone⟩

/-- R187: writing the phase that stands moves nothing. -/
theorem Drive.step_self (P : Params) (dr : Drive) : dr.step P dr.mech.phase = dr := by
  rw [Drive.step, steppedHt_illegal _ _ (.inl rfl)]
  exact moveHead_of_same_track P rfl

/-- R189: setting motor and zone twice is setting them once. -/
theorem Drive.setMotorZone_twice (P : Params) (dr : Drive) (m : Bool) (z : Bits2) :
    (dr.setMotorZone P m z).setMotorZone P m z = dr.setMotorZone P m z := by
  have hset : m = (dr.setMotorZone P m z).mech.motor ∧ z = (dr.setMotorZone P m z).mech.zone := by
    unfold Drive.setMotorZone
    split
    · assumption
    · cases m <;> exact ⟨rfl, rfl⟩
  exact if_pos hset

theorem Drive.setMotorZone_phase (P : Params) (dr : Drive) (m : Bool) (z : Bits2) :
    (dr.setMotorZone P m z).mech.phase = dr.mech.phase := by
  unfold Drive.setMotorZone
  split
  · rfl
  · split <;> rfl

/-- R186: the same control byte again does nothing more. -/
theorem Drive.control_twice (P : Params) (dr : Drive) (c : Byte) :
    (dr.control P c).control P c = dr.control P c := by
  have hphase : (dr.control P c).mech.phase = ctrlStep P c :=
    (Drive.setMotorZone_phase ..).trans (Drive.step_phase ..)
  have hstep := Drive.step_self P (dr.control P c)
  rw [hphase] at hstep
  rw [Drive.control, hstep]
  exact Drive.setMotorZone_twice ..

/-- R186, R189: the control byte as a phase write, then motor and zone. -/
theorem Drive.control_eq {P : Params} (hP : P.pinmapViad = defaultPinmapViad) (dr : Drive)
    (c : Byte) :
    dr.control P c = (dr.step P (c.extractLsb' 0 2)).setMotorZone P (c.getLsbD 2)
      (c.extractLsb' 5 2) := by
  obtain ⟨hstep, hmotor, hzone⟩ := ctrl_fields hP c
  rw [Drive.control, hstep, hmotor, hzone]

theorem zone_cases (z : Bits2) : z = 0 ∨ z = 1 ∨ z = 2 ∨ z = 3 := by
  revert z
  decide

theorem mapDrive_of_fixed {s : State} {d : Nat} {dr : Drive} {f : Drive → Drive}
    (hdr : s.drives[d]? = some dr) (hf : f dr = dr) : s.mapDrive d f = s := by
  rw [State.mapDrive, modify_id_at hdr hf]

theorem execMechCtrl_of_on {s : State} {d : Nat} {dr : Drive} (hdr : s.drives[d]? = some dr)
    (hon : dr.powered = true) (c : Byte) :
    execMechCtrl d c s = .next ((s.mapDrive d fun dr => dr.control s.params c).returns .none) :=
  onPowered_of_on hdr hon _

/-- R186: performed again, the same control byte leaves the state as it is. -/
theorem execMechCtrl_of_done {s : State} {d : Nat} {dr : Drive} (hdr : s.drives[d]? = some dr)
    (hon : dr.powered = true) (c : Byte) (hdone : dr.control s.params c = dr) :
    execMechCtrl d c s = .next (s.returns .none) := by
  rw [execMechCtrl_of_on hdr hon, mapDrive_of_fixed hdr hdone]

/-- Settles O33: `Drive.control` is a phase write and `set_motor_zone`, and is idempotent. -/
theorem controlByteResult : Obligations.ControlByteResult := by
  intro s d dr c hdr hon hP
  have hbecomes := driveBecomes_mapDrive hdr (fun dr => dr.control s.params c) .none
  have honCtrl : (dr.control s.params c).powered = true :=
    (congrArg DriveTraits.powered (Drive.control_traits ..)).trans hon
  refine ⟨_, _, _, execMechStep_of_on hdr hon _, (driveBecomes_mapDrive hdr _ .none).drive,
    execMechCtrl_of_on hdr hon c,
    execMechCtrl_of_done hbecomes.drive honCtrl c (Drive.control_twice ..), ?_⟩
  obtain ⟨hmotor, hzone⟩ := Drive.step_motor_zone s.params dr (c.extractLsb' 0 2)
  convert hbecomes using 1
  rw [Drive.control_eq hP, Drive.setMotorZone, hmotor, hzone]
  generalize c.extractLsb' 5 2 = zone
  obtain rfl | rfl | rfl | rfl := zone_cases zone <;> rfl

end Sys2Proof.Machine
end

section
/-! `MECH.TICK` (R182 to R184, R195, R222): what a tick makes of a drive's mechanism, and the ready
pulse that follows. -/

namespace Sys2Proof.Machine

set_option Elab.async false

/-! ### The mechanism (R183, R184) -/

/-- What a tick does to the mechanism and the buffer of a drive, before the ready pulse. -/
def Drive.turn (P : Params) (dr : Drive) : Drive := (dr.advance P).detectSync

@[simp] theorem Drive.turn_ctl (P : Params) (dr : Drive) : (dr.turn P).ctl = dr.ctl :=
  Drive.advance_ctl ..

theorem advance_of_lt (P : Params) {dr : Drive} (h : dr.mech.pos < 364) :
    dr.advance P = dr.withPos (dr.mech.pos + 1) :=
  if_pos h

theorem advance_of_no_image (P : Params) {dr : Drive} (hend : ¬ dr.mech.pos < 364)
    (h : dr.img = none) : dr.advance P = dr.withPos 0 := by
  rw [Drive.advance, if_neg hend, h]

/-- R183: at the end of the buffer of a sound drive the next sector of the track is encoded. -/
theorem advance_of_image {P : Params} {dr : Drive} (hdr : dr.Sound P) (hend : ¬ dr.mech.pos < 364)
    {im : Image} (himg : dr.img = some im) :
    let sector := (dr.mech.sector + 1) % sptOf P im.format (dr.mech.ht / 2)
    dr.advance P = { dr with
      buf := sectorBuffer P im (dr.mech.ht / 2) sector
      mech := { dr.mech with pos := 0, sector := sector } } := by
  have hhigh := hdr.mech.headHigh
  rw [Drive.maxTrack, himg] at hhigh
  have hnext : dr.advance P = ((dr.withPos 0).withSector
      ((dr.mech.sector + 1) % sptOf P im.format dr.curTrack)).regen P := by
    rw [Drive.advance, if_neg hend, himg]
  exact hnext.trans (regen_of_sound_image (dr := (dr.withPos 0).withSector _) himg
    (hdr.image im himg) hdr.mech.headLow hhigh)

theorem advance_ffcount (P : Params) (dr : Drive) :
    (dr.advance P).mech.ffcount = dr.mech.ffcount := by
  unfold Drive.advance
  split
  · rfl
  · split <;> simp

/-- R184: the detector counts the byte now under the head. -/
theorem turn_eq (P : Params) (dr : Drive) :
    let dr1 := dr.advance P
    let n := nextFf dr.mech.ffcount dr1.headByte
    dr.turn P = { dr1 with mech := { dr1.mech with ffcount := n, sync := decide (n = 5) } } := by
  rw [Drive.turn, Drive.detectSync, advance_ffcount]

/-! ### The ready pulse (R195, R222) -/

theorem ready_of_tpi {s : State} {d : Nat} {dr : Drive} {c : TpiChip}
    (hdr : s.drives[d]? = some dr) (hctl : dr.ctl = .tpi c) :
    s.ready d = s.emit (.readyPulse d) := by
  simp only [State.ready, hdr, hctl]

theorem ready_of_via {s : State} {d : Nat} {dr : Drive} {b dd : ViaChip}
    (hdr : s.drives[d]? = some dr) (hctl : dr.ctl = .via b dd) :
    s.ready d = (s.emit (.readyPulse d)).setCa1 d .viad true := by
  simp only [State.ready, hdr, hctl]

/-! ### The tick (R182) -/

/-- The drive as it was before is no part of what `ViaUpdated` says. -/
theorem ViaUpdated.of_mapDrive {d : Nat} {s t : State} {f : Drive → Drive} {dr : Drive}
    {b1 dd1 : ViaChip} (h : ViaUpdated d (s.mapDrive d f) t dr b1 dd1) :
    ViaUpdated d s t dr b1 dd1 := by
  obtain ⟨dr', b', dd', hdr, hctl, hmech, hb, hdd, hbRetry, hddRetry, hsettled, honly⟩ := h
  obtain ⟨hcurrent, hcpu, hevents, hretry⟩ := hsettled
  obtain ⟨⟨hparams, hpar, hrequests, hdraws⟩, hbus, hlength, hothers⟩ := honly
  refine ⟨dr', b', dd', hdr, hctl, hmech, hb, hdd, hbRetry, hddRetry,
    ⟨hcurrent, hcpu, hevents, hretry⟩, ⟨⟨hparams, hpar, hrequests, hdraws⟩, hbus,
    hlength.trans (List.length_modify ..), fun e he => ?_⟩⟩
  exact (hothers e he).trans (List.getElem?_modify_ne f _ he.symm)

theorem mapDrive_drive {s : State} {d : Nat} {dr : Drive} (hdr : s.drives[d]? = some dr)
    (f : Drive → Drive) : (s.mapDrive d f).drives[d]? = some (f dr) := by
  simp [hdr]

/-- R182: a tick of a VIA drive. -/
theorem tick_viaUpdated {s : State} {d : Nat} {dr : Drive} {b dd : ViaChip}
    (hdr : s.drives[d]? = some dr) (hctl : dr.ctl = .via b dd) :
    ViaUpdated d (s.emit (.readyPulse d)) (s.tick d) (dr.turn s.params) b
      { dd with ca1Flag := true } := by
  have hturn := mapDrive_drive hdr (Drive.turn s.params)
  have hctl' : (dr.turn s.params).ctl = .via b dd := (Drive.turn_ctl ..).trans hctl
  have htick : s.tick d =
      ((s.mapDrive d (Drive.turn s.params)).emit (.readyPulse d)).setCa1 d .viad true :=
    ready_of_via hturn hctl'
  rw [htick]
  refine ViaUpdated.of_mapDrive (f := Drive.turn s.params) ?_
  exact mapCtl_irqUpdate_viaUpdated (s := (s.mapDrive d (Drive.turn s.params)).emit (.readyPulse d))
    hturn (by rw [hctl']; rfl)

/-- R182: a tick of a TPI drive. -/
theorem tick_of_tpi {s : State} {d : Nat} {dr : Drive} {c : TpiChip}
    (hdr : s.drives[d]? = some dr) (hctl : dr.ctl = .tpi c) :
    s.tick d = (s.emit (.readyPulse d)).mapDrive d (Drive.turn s.params) :=
  ready_of_tpi (mapDrive_drive hdr (Drive.turn s.params)) ((Drive.turn_ctl ..).trans hctl)

theorem execMechTick_of_armed {s : State} {d : Nat} {dr : Drive} (hdr : s.drives[d]? = some dr)
    (harmed : dr.mech.timerArmed = true) :
    execMechTick d s = .next ((s.tick d).returns .none) := by
  rw [execMechTick, onDrive_of_some hdr, if_pos harmed]
  rfl

theorem execMechTick_of_disarmed {s : State} {d : Nat} {dr : Drive} (hdr : s.drives[d]? = some dr)
    (hdisarmed : dr.mech.timerArmed = false) :
    execMechTick d s = .refused (.timerDisarmed d) := by
  rw [execMechTick, onDrive_of_some hdr, if_neg (by simp [hdisarmed])]

/-- Settles O34: the mechanism turns as `advance` and the detector say, then `ready` follows. -/
theorem tickResult : Obligations.TickResult := by
  intro s d dr hs hdr P m next dr1 n dr2 s2
  have hadvance : dr.advance P = dr1 := by
    by_cases hpos : m.pos < 364
    · exact (advance_of_lt P hpos).trans (if_pos hpos).symm
    · refine Eq.trans ?_ (if_neg hpos).symm
      split
      case _ hnone => exact advance_of_no_image P hpos hnone
      case _ im him => exact advance_of_image (hs.drive hdr) hpos him
  have hturn : dr.turn P = dr2 := by
    rw [turn_eq, hadvance]
    rfl
  refine ⟨fun harmed => ⟨_, execMechTick_of_armed hdr harmed, rfl, fun b dd hctl => ?_,
    fun c hctl => ?_⟩, execMechTick_of_disarmed hdr⟩
  · rw [← hturn]
    exact (tick_viaUpdated hdr hctl).returns _
  · rw [← hturn, tick_of_tpi hdr hctl]
    exact driveBecomes_mapDrive (s := s2) hdr (Drive.turn P) .none

end Sys2Proof.Machine
end

section
/-! Sync in a sector buffer (R184, R185, R310): no group begins with `0xFF`, so only the two sync runs
can fill the detector's count; and ticks over one buffer run that count along it. -/

namespace Sys2Proof.Machine

set_option Elab.async false

/-! ### Bytes of a sector buffer that are not `0xFF` (R96, R100, R101) -/

theorem getD_slice {l : List Byte} {i n j : Nat} (hj : j < n) :
    (slice l i n).getD j 0 = l.getD (i + j) 0 := by
  simp [slice, List.getD_eq_getElem?_getD, hj]

/-- No code of the default table is `11111`, so the first byte of a group has a bit clear. -/
theorem encode4to5_first_ne (a b c e : Byte) :
    (encode4to5 defaultGcrTable a b c e).getD 0 0 ≠ 0xFF := by
  have hfirst : ∀ m n : Nibble,
      (codeByte defaultGcrTable m <<< 3) ||| (codeByte defaultGcrTable n >>> 2) ≠ 0xFF := by
    decide
  rw [encode4to5_eq_packed]
  exact hfirst (hi4 a) (lo4 a)

/-- R101: the gap holds no `0xFF`. -/
theorem gapGroup_getD_ne {P : Params} (hP : P.wf = true) {j : Nat} (hj : j < 5) :
    P.gapGroup.getD j 0 ≠ 0xFF := by
  have hj' : j < P.gapGroup.length := by rw [gapGroup_length hP]; exact hj
  have hgap : 0xFF ∉ P.gapGroup := by
    simp only [Params.wf, Bool.and_eq_true] at hP
    simp_all
  intro h
  rw [← List.getElem_eq_getD (h := hj')] at h
  exact hgap (h ▸ List.getElem_mem hj')

section
variable {P : Params} (hP : P.wf = true) (htbl : P.gcrTable = defaultGcrTable)
  (track sector id1 id2 : Byte) {data : List Byte} (hd : data.length = 256)
include hP

/-- Byte `j` of part `k` of what stands before the data block. -/
theorem encodeSector_front_getD (data : List Byte) {k j : Nat} (hk : k < 6) (hj : j < 5) :
    (encodeSector P track sector id1 id2 data).getD (5 * k + j) 0 =
      ((sectorFront P track sector id1 id2)[k]).getD j 0 := by
  rw [← slice_encodeSector_front hP track sector id1 id2 data hk, getD_slice hj]

/-- R100: the two sync runs. -/
theorem encodeSector_sync (data : List Byte) {n : Nat} (hn : n < 5 ∨ (25 ≤ n ∧ n < 30)) :
    (encodeSector P track sector id1 id2 data).getD n 0 = 0xFF := by
  have hrun : ∀ j, j < 5 → syncRun.getD j 0 = 0xFF := by decide
  have hfront {k j : Nat} (hk : k < 6) (hj : j < 5) :=
    encodeSector_front_getD hP track sector id1 id2 data hk hj
  rcases hn with hn | ⟨h1, h2⟩
  · have hbyte := hfront (k := 0) (by decide) hn
    rw [show 5 * 0 + n = n by omega] at hbyte
    exact hbyte.trans (hrun n hn)
  · have hbyte := hfront (k := 5) (j := n - 25) (by decide) (by omega)
    rw [show 5 * 5 + (n - 25) = n by omega] at hbyte
    exact hbyte.trans (hrun _ (by omega))

/-- R100, R101: the byte before the second sync run. -/
theorem encodeSector_gap_end (data : List Byte) :
    (encodeSector P track sector id1 id2 data).getD 24 0 ≠ 0xFF := by
  rw [show 24 = 5 * 4 + 4 from rfl,
    encodeSector_front_getD hP track sector id1 id2 data (by decide) (by decide)]
  exact gapGroup_getD_ne hP (by decide)

include htbl hd

/-- R99, R100: of the 73 groups of a buffer only the sync runs begin with `0xFF`. -/
theorem encodeSector_group_start {g : Nat} (hg : g < 73) (h0 : g ≠ 0) (h5 : g ≠ 5) :
    (encodeSector P track sector id1 id2 data).getD (5 * g) 0 ≠ 0xFF := by
  have hgap := gapGroup_getD_ne hP (j := 0) (by decide)
  have hcode (a b c e : Byte) : (encode4to5 P.gcrTable a b c e).getD 0 0 ≠ 0xFF :=
    htbl ▸ encode4to5_first_ne a b c e
  rw [← Nat.add_zero (5 * g)]
  obtain hfront | ⟨hblock, hblock'⟩ | hend : g < 6 ∨ (6 ≤ g ∧ g < 71) ∨ 71 ≤ g := by omega
  · rw [encodeSector_front_getD hP track sector id1 id2 data hfront (by decide)]
    obtain rfl | rfl | rfl | rfl : g = 1 ∨ g = 2 ∨ g = 3 ∨ g = 4 := by omega
    exacts [hcode _ _ _ _, hcode _ _ _ _, hgap, hgap]
  · obtain ⟨k, rfl⟩ := Nat.exists_eq_add_of_le hblock
    rw [Nat.mul_add, ← getD_slice (n := 5) (by decide),
      slice_encodeSector_group hP track sector id1 id2 hd (by omega) rfl rfl rfl rfl]
    exact hcode _ _ _ _
  · obtain ⟨k, rfl⟩ := Nat.exists_eq_add_of_le hend
    rw [Nat.mul_add, ← getD_slice (n := 5) (by decide),
      slice_encodeSector_gap hP track sector id1 id2 hd (by omega)]
    exact hgap

end

/-- Settles O24: five consecutive bytes of a block include the first byte of a group. -/
theorem noSyncInsideBlocks : Obligations.NoSyncInsideBlocks := by
  intro P track sector id1 id2 data k hP htbl hd hk hsync
  have hall {j : Nat} (hj : j < 5) :
      (encodeSector P track sector id1 id2 data).getD (k + j) 0 = 0xFF := by
    rw [← getD_slice hj, hsync, List.getD_replicate _ hj]
  have hfirst : (encodeSector P track sector id1 id2 data).getD (5 * ((k + 4) / 5)) 0 = 0xFF := by
    have hbyte := hall (j := 5 * ((k + 4) / 5) - k) (by omega)
    rwa [show k + (5 * ((k + 4) / 5) - k) = 5 * ((k + 4) / 5) by omega] at hbyte
  exact encodeSector_group_start hP htbl track sector id1 id2 hd (by omega) (by omega) (by omega)
    hfirst

/-! ### The detector's count along a buffer (R184) -/

theorem nextFf_of_ff (n : Nat) : nextFf n 0xFF = min (n + 1) 5 :=
  if_pos rfl

theorem nextFf_of_ne (n : Nat) {b : Byte} (h : b ≠ 0xFF) : nextFf n b = 0 :=
  if_neg h

theorem nextFf_le (n : Nat) (b : Byte) : nextFf n b ≤ n + 1 := by
  unfold nextFf
  split <;> omega

/-- The detector's count on arriving at index `n` of a buffer, `ff` at index 0. -/
def ffAlong (buf : List Byte) (ff : Nat) : Nat → Nat
  | 0 => ff
  | n + 1 => nextFf (ffAlong buf ff n) (buf.getD (n + 1) 0)

/-- The count at index `n` of a sector buffer: along the sync runs one more for each byte, else no
more than the bytes since the start of the group, and none before the second sync run. -/
structure SectorCount (ff n count : Nat) : Prop where
  first : n < 5 → count = ff + n
  second : 25 ≤ n → n < 30 → count = n - 24
  block : 5 ≤ n → n < 25 ∨ 30 ≤ n → count ≤ n % 5
  gapEnd : n = 24 → count = 0

theorem SectorCount.eq_five_iff {ff n count : Nat} (h : SectorCount ff n count) (hff : ff ≤ 1) :
    count = 5 ↔ (n = 4 ∧ ff = 1) ∨ n = 29 := by
  obtain ⟨hfirst, hsecond, hblock, -⟩ := h
  by_cases h5 : n < 5
  · have := hfirst h5
    omega
  · by_cases hrun : 25 ≤ n ∧ n < 30
    · have := hsecond hrun.1 hrun.2
      omega
    · have := hblock (by omega) (by omega)
      omega

/-- R184, R185: the count along an encoded sector. -/
theorem ffAlong_encodeSector {P : Params} (hP : P.wf = true) (htbl : P.gcrTable = defaultGcrTable)
    (track sector id1 id2 : Byte) {data : List Byte} (hd : data.length = 256) {ff n : Nat}
    (hff : ff ≤ 1) (hn : n < 365) :
    SectorCount ff n (ffAlong (encodeSector P track sector id1 id2 data) ff n) := by
  induction n with
  | zero => exact ⟨fun _ => rfl, by omega, by omega, by omega⟩
  | succ n ih =>
    obtain ⟨ihfirst, ihsecond, ihblock, ihgapEnd⟩ := ih (by omega)
    rw [ffAlong]
    by_cases hsync : n + 1 < 5 ∨ (25 ≤ n + 1 ∧ n + 1 < 30)
    · rw [encodeSector_sync hP track sector id1 id2 data hsync, nextFf_of_ff]
      exact ⟨by omega, by omega, by omega, by omega⟩
    · by_cases hstart : (n + 1) % 5 = 0
      · have hfirst := encodeSector_group_start hP htbl track sector id1 id2 hd
          (g := (n + 1) / 5) (by omega) (by omega) (by omega)
        rw [show 5 * ((n + 1) / 5) = n + 1 by omega] at hfirst
        rw [nextFf_of_ne _ hfirst]
        exact ⟨by omega, by omega, by omega, fun _ => rfl⟩
      · have hle := nextFf_le (ffAlong (encodeSector P track sector id1 id2 data) ff n)
          ((encodeSector P track sector id1 id2 data).getD (n + 1) 0)
        refine ⟨by omega, by omega, by omega, fun h24 => ?_⟩
        rw [h24]
        exact nextFf_of_ne _ (encodeSector_gap_end hP track sector id1 id2 data)

/-! ### Ticks over one buffer (R182 to R184) -/

theorem execAll_append_singleton {is : List Instr} {i : Instr} {s t : State}
    (h : execAll is s = .next t) : execAll (is ++ [i]) s = exec i t := by
  induction is generalizing s with
  | nil =>
    obtain rfl : s = t := Host.Outcome.next.inj h
    simp only [List.nil_append, execAll]
    cases exec i s <;> rfl
  | cons j is ih =>
    simp only [List.cons_append, execAll] at h ⊢
    cases hj : exec j s with
    | next u =>
      rw [hj] at h
      exact ih h
    | fault f => exact f.casesOn
    | refused r => simp [hj] at h

/-- R182: but for its chips and `cpu_irq` a drive is what `Drive.turn` makes of it. -/
theorem tick_sameMechanism {s : State} {d : Nat} {dr : Drive} (hdr : s.drives[d]? = some dr) :
    ∃ dr', (s.tick d).drives[d]? = some dr' ∧ SameMechanism (dr.turn s.params) dr' := by
  cases hctl : dr.ctl with
  | via b dd =>
    obtain ⟨dr', b', dd', hdr', -, hmech, -⟩ := tick_viaUpdated hdr hctl
    exact ⟨dr', hdr', hmech⟩
  | tpi c =>
    rw [tick_of_tpi hdr hctl]
    exact ⟨_, mapDrive_drive (s := s.emit (.readyPulse d)) hdr _, rfl, rfl, rfl, rfl, rfl, rfl⟩

/-- Where drive `dr` stands when it has arrived at index `n` of its buffer. -/
structure ArrivedAt (dr dr' : Drive) (n : Nat) : Prop where
  buf : dr'.buf = dr.buf
  armed : dr'.mech.timerArmed = true
  pos : dr'.mech.pos = n
  ffcount : dr'.mech.ffcount = ffAlong dr.buf dr.mech.ffcount n
  sync : dr'.mech.sync = decide (ffAlong dr.buf dr.mech.ffcount n = 5)

/-- One more tick before the end of the buffer. -/
theorem ArrivedAt.tick {dr dr1 dr2 : Drive} {n : Nat} {P : Params} (h : ArrivedAt dr dr1 n)
    (hn : n < 364) (hmech : SameMechanism (dr1.turn P) dr2) : ArrivedAt dr dr2 (n + 1) := by
  obtain ⟨hbuf, harmed, hpos, hff, -⟩ := h
  obtain ⟨-, -, -, -, hbuf', hmech'⟩ := hmech
  rw [turn_eq, advance_of_lt P (hpos ▸ hn)] at hbuf' hmech'
  have hcount : nextFf dr1.mech.ffcount (dr1.withPos (dr1.mech.pos + 1)).headByte =
      ffAlong dr.buf dr.mech.ffcount (n + 1) := by
    rw [Drive.headByte, Drive.withPos_buf, Drive.withPos_mech, hbuf, hff, hpos, ffAlong]
  simp only [hcount] at hmech'
  exact ⟨hbuf'.trans hbuf, by rw [hmech']; exact harmed, by rw [hmech']; exact congrArg (· + 1) hpos,
    by rw [hmech'], by rw [hmech']⟩

/-- R182: `n` ticks from index 0 of a buffer arrive at index `n`. -/
theorem execAll_mechTicks {s : State} {d : Nat} {dr : Drive} (hdr : s.drives[d]? = some dr)
    (hstart : ArrivedAt dr dr 0) {n : Nat} (hn : n ≤ 364) :
    ∃ t dr', execAll (List.replicate n (.mechTick d)) s = .next t ∧ t.drives[d]? = some dr' ∧
      ArrivedAt dr dr' n := by
  induction n with
  | zero => exact ⟨s, dr, rfl, hdr, hstart⟩
  | succ n ih =>
    obtain ⟨t, dr1, hexec, hdr1, harrived⟩ := ih (by omega)
    obtain ⟨dr2, hdr2, hmech⟩ := tick_sameMechanism hdr1
    refine ⟨(t.tick d).returns .none, dr2, ?_, hdr2, harrived.tick (by omega) hmech⟩
    rw [List.replicate_succ', execAll_append_singleton hexec]
    exact execMechTick_of_armed hdr1 harrived.armed

/-- Settles O25: `n` ticks run the detector's count along the buffer to index `n`, and along an encoded
sector it is 5 at the ends of the sync runs alone. -/
theorem syncAtBlockStarts : Obligations.SyncAtBlockStarts := by
  intro s d dr track sector id1 id2 data n hP htbl hd hdr harmed hbuf hpos hff hsync hn
  have hstart : ArrivedAt dr dr 0 :=
    ⟨rfl, harmed, hpos, rfl, hsync.trans (decide_eq_false (show ¬ dr.mech.ffcount = 5 by omega)).symm⟩
  obtain ⟨t, dr', hexec, hdr', harrived⟩ := execAll_mechTicks hdr hstart hn
  have hcount := ffAlong_encodeSector hP htbl track sector id1 id2 hd hff (Nat.lt_succ_of_le hn)
  rw [← hbuf] at hcount
  exact ⟨t, dr', hexec, hdr', harrived.buf, harrived.pos,
    harrived.sync.trans (decide_eq_decide.2 (hcount.eq_five_iff hff))⟩

end Sys2Proof.Machine
end

section
/-! Port bits (R211, R102, R103): what a byte with one bit written reads, what the read-back law
answers bit by bit, and the pins of the two port B inputs of a VIA drive (R214, R219). -/

namespace Sys2Proof.Machine

set_option Elab.async false

/-! ### An operation of a powered VIA drive -/

theorem ViaAt.onVia {s : State} {d : Nat} {dr : Drive} {b dd : ViaChip} (h : ViaAt s d dr b dd)
    (k : Drive → ViaChip → ViaChip → Out) : onVia s d k = k dr b dd := by
  obtain ⟨hdr, hon, hctl⟩ := h
  simp [Machine.onVia, onDrive_of_some hdr, hctl, hon]

/-! ### One bit of a byte (R9, R211) -/

theorem bitAt_withBit (v : Byte) (i j : Fin 8) (x : Bool) :
    bitAt (withBit v i x) j = if j = i then x else bitAt v j := by
  have hbit : (1#8 <<< i.val).getLsbD j.val = decide (j = i) := by
    revert i j
    decide
  unfold withBit bitAt
  cases x
  · rw [if_neg Bool.false_ne_true, BitVec.getLsbD_and, BitVec.getLsbD_not, hbit]
    by_cases hji : j = i <;> simp [hji]
  · rw [if_pos rfl, BitVec.getLsbD_or, hbit]
    by_cases hji : j = i <;> simp [hji]

/-- R211, bit by bit. -/
theorem readBack_readsBack (pin latch ddr : Byte) :
    ReadsBack (readBack pin latch ddr) latch ddr (bitAt pin) := by
  intro j
  have hbit : bitAt (readBack pin latch ddr) j =
      (bitAt pin j && !bitAt ddr j || bitAt latch j && bitAt ddr j) := by
    simp [readBack, bitAt]
  rw [hbit]
  cases bitAt ddr j <;> simp

/-- R212: the optional inversion between a line and its pin. -/
theorem portLevel_eq_xor (P : Params) (v : Bool) : portLevel P v = (P.busInvert ^^ v) := by
  unfold portLevel
  cases P.busInvert <;> simp

/-! ### The pins of port B (R214, R219) -/

/-- R103, R214. -/
theorem bitAt_viabPins {P : Params} (hP : P.pinmapViab = defaultPinmapViab) (sel : Bits2)
    (line : Lines) (j : Fin 8) :
    bitAt (viabPins P sel line) j =
      if j = 0 then P.busInvert ^^ line.data
      else if j = 2 then P.busInvert ^^ line.clock
      else if j = 7 then P.busInvert ^^ line.atn
      else if j = 5 then sel.getLsbD 0
      else if j = 6 then sel.getLsbD 1
      else bitAt P.floatIn j := by
  simp only [viabPins, hP, defaultPinmapViab, bitAt_withBit, portLevel_eq_xor]
  fin_cases j <;> rfl

/-- R102, R219. -/
theorem bitAt_viadPins {P : Params} (hP : P.pinmapViad = defaultPinmapViad) (wp sync : Bool)
    (j : Fin 8) :
    bitAt (viadPins P wp sync) j =
      if j = 4 then P.wpActiveLow ^^ wp
      else if j = 7 then P.syncActiveLow ^^ sync
      else bitAt P.floatIn j := by
  have hlow (low v : Bool) : (if low then !v else v) = (low ^^ v) := by cases low <;> simp
  simp only [viadPins, hP, defaultPinmapViad, bitAt_withBit, hlow]
  fin_cases j <;> rfl

/-! ### The status bytes (R214, R219) -/

/-- Settles O45: the read-back law over the pins of the bus chip. -/
theorem busStatusByte : Obligations.BusStatusByte := by
  intro s d dr b dd h hP
  refine ⟨_, h.onVia _, fun j => ?_⟩
  rw [readBack_readsBack, bitAt_viabPins hP]

/-- Settles O46: the read-back law over the pins of the disk chip. -/
theorem mechanismStatusByte : Obligations.MechanismStatusByte := by
  intro s d dr b dd h hP
  refine ⟨_, h.onVia _, fun j => ?_⟩
  rw [readBack_readsBack, bitAt_viadPins hP]

end Sys2Proof.Machine
end

section
/-! The registers of a VIA chip: the plain ones (R224, R226, R227, R229), and those whose access
recomputes the interrupt outputs (R215, R217, R218, R223, R225, R230, R231). -/

namespace Sys2Proof.Machine

set_option Elab.async false

/-! ### Plain registers (R224, R226, R227, R229) -/

/-- R229: a controller change alone, which leaves the chips `b1` and `dd1`. -/
theorem ViaAt.mapCtl_becomes {s : State} {d : Nat} {dr : Drive} {b dd b1 dd1 : ViaChip}
    (h : ViaAt s d dr b dd) {f : Controller → Controller} (hf : f (.via b dd) = .via b1 dd1) :
    DriveBecomes d s ((s.mapCtl d f).returns .none) { dr with ctl := .via b1 dd1 } .none := by
  have hbecomes := driveBecomes_mapDrive h.present (fun dr => { dr with ctl := f dr.ctl }) .none
  simp only [h.chips, hf] at hbecomes
  exact hbecomes

/-- Settles O51: each access is a read of a stored byte, a draw, or a controller change alone. -/
theorem viaPlainRegisters : Obligations.ViaPlainRegisters := by
  intro s d dr b dd v k h
  exact ⟨h.onVia _, h.onVia _, h.onVia _, h.onVia _, ⟨_, h.onVia _, h.mapCtl_becomes rfl⟩,
    ⟨_, h.onVia _, h.mapCtl_becomes rfl⟩,
    fun _ => ⟨Config.drawByte s.draws, s.draws + 1, h.onVia _⟩⟩

/-! ### A register change and `IRQ.UPDATE` (R223, R230, R231) -/

theorem mapCtl_mapCtl (s : State) (d : Nat) (f g : Controller → Controller) :
    (s.mapCtl d f).mapCtl d g = s.mapCtl d (g ∘ f) := by
  simp [State.mapCtl, State.mapDrive, List.modify_modify_eq, Function.comp_def]

/-- R277: a controller change that leaves the chips `b1` and `dd1`, and `IRQ.UPDATE`. -/
theorem ViaAt.mapCtl_updated {s : State} {d : Nat} {dr : Drive} {b dd b1 dd1 : ViaChip}
    (h : ViaAt s d dr b dd) {f : Controller → Controller} (hf : f (.via b dd) = .via b1 dd1)
    (r : Result) : ViaUpdated d s (((s.mapCtl d f).irqUpdate d).returns r) dr b1 dd1 :=
  (mapCtl_irqUpdate_viaUpdated h.present (h.chips ▸ hf)).returns r

/-- R223: a controller change, then the flag of chip `c`, that leave the chips `b1` and `dd1`. -/
theorem ViaAt.mapCtl_setCa1_updated {s : State} {d : Nat} {dr : Drive} {b dd b1 dd1 : ViaChip}
    (h : ViaAt s d dr b dd) {f : Controller → Controller} {c : ViaId} {v : Bool}
    (hf : (f (.via b dd)).mapVia c (fun ch => { ch with ca1Flag := v }) = .via b1 dd1)
    (r : Result) : ViaUpdated d s (((s.mapCtl d f).setCa1 d c v).returns r) dr b1 dd1 := by
  rw [State.setCa1, mapCtl_mapCtl]
  exact h.mapCtl_updated hf r

/-- Settles O47: the read-back law, then the flag and `IRQ.UPDATE`. -/
theorem portAReads : Obligations.PortAReads := by
  intro s d dr b dd h
  exact ⟨⟨_, _, h.onVia _, rfl, readBack_readsBack _ _ _, h.mapCtl_updated rfl _⟩,
    ⟨_, _, h.onVia _, rfl, readBack_readsBack _ _ _, h.mapCtl_updated rfl _⟩⟩

/-- Settles O48: the latch, then the flag and `IRQ.UPDATE`. -/
theorem portAWrites : Obligations.PortAWrites := by
  intro s d dr b dd v h
  exact ⟨⟨_, h.onVia _, rfl, h.mapCtl_setCa1_updated rfl _⟩,
    ⟨_, h.onVia _, rfl, h.mapCtl_setCa1_updated rfl _⟩⟩

theorem ctGet_ctSet (ct : ViaCt) (k j : Fin 4) (v : Byte) :
    ctGet (ctSet ct k v) j = if j = k then v else ctGet ct j := by
  fin_cases k <;> fin_cases j <;> rfl

/-- R224: four zero bytes enable nothing, whatever else the decode is. -/
theorem ctrlDecode_zero (P : Params) : (ctrlDecode P ⟨0, 0, 0, 0⟩).ca1Enable = false := by
  rw [ctrlDecode, if_pos rfl]

/-- Settles O52: each write is a controller change and `IRQ.UPDATE`. -/
theorem controlRegistersAndOtherSources : Obligations.ControlRegistersAndOtherSources := by
  refine ⟨fun s d dr b dd k v level h => ?_, ctrlDecode_zero⟩
  exact ⟨⟨_, _, h.onVia _, rfl, fun j => ctGet_ctSet b.ct k j v, h.mapCtl_updated rfl _⟩,
    ⟨_, _, h.onVia _, rfl, fun j => ctGet_ctSet dd.ct k j v, h.mapCtl_updated rfl _⟩,
    ⟨_, h.onVia _, rfl, h.mapCtl_updated rfl _⟩,
    ⟨_, h.onVia _, rfl, h.mapCtl_updated rfl _⟩⟩

end Sys2Proof.Machine
end

section
/-! Port B outputs of a VIA drive: the disk chip commands the mechanism (R220, R228); the bus chip
drives DATA and CLOCK (R216, R228), which change no drive, so that `BUS.SET` on them is one
equation. -/

namespace Sys2Proof.Machine

set_option Elab.async false

/-! ### A register written, and the drive it leaves -/

/-- The state in which a controller change left the chips `b1` and `dd1`. -/
theorem ViaAt.mapCtl_eq {s : State} {d : Nat} {dr : Drive} {b dd b1 dd1 : ViaChip}
    (h : ViaAt s d dr b dd) {f : Controller → Controller} (hf : f (.via b dd) = .via b1 dd1) :
    s.mapCtl d f = { s with drives := s.drives.set d { dr with ctl := .via b1 dd1 } } := by
  have hset : s.drives.modify d (fun x => { x with ctl := f x.ctl }) =
      s.drives.set d { dr with ctl := .via b1 dd1 } := by
    rw [List.modify_eq_set_getElem?, h.present]
    simp [h.chips, hf]
  rw [State.mapCtl, State.mapDrive, hset]

theorem ViaAt.mapCtl {s : State} {d : Nat} {dr : Drive} {b dd b1 dd1 : ViaChip}
    (h : ViaAt s d dr b dd) {f : Controller → Controller} (hf : f (.via b dd) = .via b1 dd1) :
    ViaAt (s.mapCtl d f) d { dr with ctl := .via b1 dd1 } b1 dd1 where
  present := by simp [h.present, h.chips, hf]
  powered := h.powered
  chips := rfl

/-! ### The disk chip (R220, R228) -/

theorem ViaAt.applyControl {s : State} {d : Nat} {dr : Drive} {b dd : ViaChip}
    (h : ViaAt s d dr b dd) : s.applyControl d = s.mechCtrl d (dd.orb &&& dd.ddrb) := by
  simp [State.applyControl, h.present, h.chips]

/-- R220: a register change, then the driven control pins, is the change, then `MECH.CTRL`. -/
theorem ViaAt.applyControl_eq_mechCtrl {s : State} {d : Nat} {dr : Drive} {b dd dd1 : ViaChip}
    (h : ViaAt s d dr b dd) {f : Controller → Controller} (hf : f (.via b dd) = .via b dd1) :
    exec (.mechCtrl d (dd1.orb &&& dd1.ddrb))
        { s with drives := s.drives.set d { dr with ctl := .via b dd1 } } =
      .next (((s.mapCtl d f).applyControl d).returns .none) := by
  have hat := h.mapCtl hf
  rw [← h.mapCtl_eq hf, hat.applyControl]
  exact execMechCtrl_of_on hat.present hat.powered _

/-- Settles O50: both writes are a register change, then the driven control pins. -/
theorem diskChipCommandsMechanism : Obligations.DiskChipCommandsMechanism := by
  intro s d dr b dd v h
  exact ⟨⟨_, h.onVia _, h.applyControl_eq_mechCtrl rfl⟩,
    ⟨_, h.onVia _, h.applyControl_eq_mechCtrl rfl⟩⟩

/-! ### Lines that no drive hears (R161, R165) -/

/-- R165, R221: away from ATN a notification is its event, if the participant hears. -/
theorem notify_of_ne_atn {l : Line} (hl : l ≠ .atn) (s : State) (q : Nat) (v : Bool) :
    s.notify q l v = if hears s q then s.emit (.busEdge q l v) else s := by
  cases q with
  | zero => rfl
  | succ d =>
    cases hdr : s.drives[d]? with
    | none => simp [notify_of_none hdr, hears_drive, hdr]
    | some dr =>
      rw [hears_drive_of_some hdr]
      cases hon : dr.powered with
      | false => simp [notify_of_off hdr hon]
      | true =>
        cases hctl : dr.ctl with
        | tpi c => simp [notify_of_tpi ⟨hdr, hon, hctl⟩]
        | via b dd => simp [notify_of_via ⟨hdr, hon, hctl⟩, hl]

/-- R161: notifying participants of a line that is not ATN only emits. -/
theorem foldl_notify_of_ne_atn {l : Line} (hl : l ≠ .atn) (qs : List Nat) (s : State) (v : Bool) :
    qs.foldl (fun s q => s.notify q l v) s = { s with
      events := ((qs.filter (hears s)).map fun q => .busEdge q l v).reverse ++ s.events } := by
  induction qs generalizing s with
  | nil => rfl
  | cons q qs ih =>
    have hhears : hears (s.notify q l v) = hears s :=
      funext (hears_of_traits_eq (notify_traits s q l v))
    rw [List.foldl_cons, ih, hhears, notify_of_ne_atn hl]
    cases hq : hears s q <;> simp [hq, State.emit]

theorem notifyAll_of_ne_atn {l : Line} (hl : l ≠ .atn) (s : State) (v : Bool) :
    s.notifyAll l v = { s with events := edgeEvents s l v ++ s.events } :=
  foldl_notify_of_ne_atn hl _ s v

/-- R165: who is told of a line can be read off the traits. -/
theorem lineEvents_of_traits_eq {s t : State} (h : t.traits = s.traits) (l : Line) (old v : Bool) :
    lineEvents t l old v = lineEvents s l old v := by
  have hparts : t.bus.latches.length = s.bus.latches.length := congrArg Traits.participants h
  have hhears : hears t = hears s := funext (hears_of_traits_eq h)
  rw [lineEvents, lineEvents, edgeEvents, edgeEvents, hparts, hhears]

/-- R161: `BUS.SET` on a line that is not ATN writes the bus and emits, and does nothing else. -/
theorem busSet_of_ne_atn {l : Line} (hl : l ≠ .atn) (s : State) (p : Nat) (v : Bool) :
    s.busSet p l v = { s with
      bus := (s.busSet p l v).bus
      events := lineEvents s l (s.bus.line.get l) ((s.busSet p l v).bus.line.get l) ++
        s.events } := by
  rw [busSet_line_get]
  rcases busSet_cases s p l v with ⟨hsame, heq⟩ | ⟨hedge, heq⟩
  · rw [heq, lineEvents, if_pos hsame]
    rfl
  · have htraits : ((s.setLatch p l v).setLine l ((s.setLatch p l v).bus.wiredAnd l)).traits =
        s.traits := by simp
    have hevents := lineEvents_of_traits_eq htraits l (s.bus.line.get l)
      ((s.setLatch p l v).bus.wiredAnd l)
    rw [← hevents, lineEvents, if_neg hedge, heq, notifyAll_of_ne_atn hl]
    rfl

/-! ### The bus chip (R216, R228) -/

/-- R163: the latches of one line do not see a write of another. -/
theorem all_get_modify_set_ne {l l' : Line} (h : l' ≠ l) (latches : List Lines) (p : Nat)
    (v : Bool) :
    (latches.modify p fun x => x.set l v).all (fun x => x.get l') =
      latches.all fun x => x.get l' := by
  induction latches generalizing p with
  | nil => cases p <;> rfl
  | cons x xs ih => cases p <;> simp [Lines.get_set_ne _ _ h, ih]

theorem viabOut_eq_putsOut (P : Params) (b : ViaChip) (j : Fin 8) :
    viabOut P b j = putsOut P b j := by
  unfold viabOut putsOut
  cases bitAt b.ddrb j <;> cases P.busInvert <;> simp

/-- R216: DATA, then CLOCK, as the driven pins at the default positions say. -/
theorem ViaAt.applyBusOutputs {s : State} {d : Nat} {dr : Drive} {b dd : ViaChip}
    (h : ViaAt s d dr b dd) (hP : s.params.pinmapViab = defaultPinmapViab) :
    s.applyBusOutputs d = (s.busSet (d + 1) .data (putsOut s.params b 1)).busSet (d + 1) .clock
      (putsOut s.params b 3) := by
  simp only [State.applyBusOutputs, h.present, h.chips, viabOut_eq_putsOut, hP, Nat.add_comm 1 d]
  rfl

/-- `DATA`, then `CLOCK`, of one participant put out: what is left of the bus. -/
theorem busSet_data_clock_bus (s : State) (p : Nat) (v w : Bool) :
    let t := (s.busSet p .data v).busSet p .clock w
    t.bus.latches = s.bus.latches.modify p (fun x => { x with data := v, clock := w }) ∧
      t.bus.line = ⟨s.bus.line.atn, t.bus.latches.all fun x => x.clock,
        t.bus.latches.all fun x => x.data⟩ := by
  intro t
  have hdata : t.bus.latches.all (fun x => x.data) =
      (s.busSet p .data v).bus.latches.all fun x => x.data := by
    rw [busSet_latches _ p .clock]
    exact all_get_modify_set_ne (l' := .data) (by decide) _ p w
  refine ⟨?_, ?_⟩
  · rw [busSet_latches, busSet_latches, List.modify_modify_eq]
    rfl
  · rw [hdata, busSet_latches, busSet_latches, busSet_line, busSet_line]
    simp [Lines.set, Bus.wiredAnd, Lines.get]

theorem busSet_retryArmed_of_ne_atn {l : Line} (hl : l ≠ .atn) (s : State) (p : Nat) (v : Bool) :
    (s.busSet p l v).retryArmed = s.retryArmed :=
  (congrArg State.retryArmed (busSet_of_ne_atn hl s p v) :)

theorem busSet_events_of_ne_atn {l : Line} (hl : l ≠ .atn) (s : State) (p : Nat) (v : Bool) :
    (s.busSet p l v).events =
      lineEvents s l (s.bus.line.get l) ((s.busSet p l v).bus.line.get l) ++ s.events :=
  congrArg State.events (busSet_of_ne_atn hl s p v)

/-- `DATA`, then `CLOCK`, of one participant put out: what is emitted. -/
theorem busSet_data_clock_events (s : State) (p : Nat) (v w : Bool) :
    let t := (s.busSet p .data v).busSet p .clock w
    t.events = lineEvents s .clock s.bus.line.clock t.bus.line.clock ++
      lineEvents s .data s.bus.line.data t.bus.line.data ++ s.events := by
  intro t
  have hclock : (s.busSet p .data v).bus.line.get .clock = s.bus.line.clock := by
    rw [busSet_line]
    rfl
  have hdata : t.bus.line.data = (s.busSet p .data v).bus.line.get .data := by
    rw [busSet_line _ p .clock]
    rfl
  rw [busSet_events_of_ne_atn (by decide), busSet_events_of_ne_atn (by decide), hclock, hdata,
    lineEvents_of_traits_eq (busSet_traits s p .data v), List.append_assoc]
  rfl

/-- R216: what a register change of the bus chip makes of the state, when its outputs follow. -/
theorem ViaAt.mapVia_applyBusOutputs {s : State} {d : Nat} {dr : Drive} {b dd : ViaChip}
    (h : ViaAt s d dr b dd) (hP : s.params.pinmapViab = defaultPinmapViab)
    (f : ViaChip → ViaChip) :
    let t := ((s.mapCtl d (Controller.mapVia .viab f)).applyBusOutputs d).returns .none
    t.result = .none ∧ SameFixed s t ∧ t.retryArmed = s.retryArmed ∧
      t.drives = s.drives.set d { dr with ctl := .via (f b) dd } ∧
      t.bus.latches = s.bus.latches.modify (d + 1) (fun x =>
        { x with data := putsOut s.params (f b) 1, clock := putsOut s.params (f b) 3 }) ∧
      t.bus.line = ⟨s.bus.line.atn, t.bus.latches.all fun x => x.clock,
        t.bus.latches.all fun x => x.data⟩ ∧
      t.events = lineEvents s .clock s.bus.line.clock t.bus.line.clock ++
        lineEvents s .data s.bus.line.data t.bus.line.data ++ s.events := by
  intro t
  let s1 := s.mapCtl d (Controller.mapVia .viab f)
  have htraits : s1.traits = s.traits := mapCtl_keeps_traits (Controller.mapVia_isVia .viab f) s d
  have ht : t = ((s1.busSet (d + 1) .data (putsOut s.params (f b) 1)).busSet (d + 1) .clock
      (putsOut s.params (f b) 3)).returns .none :=
    congrArg (State.returns · .none) ((h.mapCtl rfl).applyBusOutputs hP)
  obtain ⟨hlatches, hline⟩ := busSet_data_clock_bus s1 (d + 1) (putsOut s.params (f b) 1)
    (putsOut s.params (f b) 3)
  have hevents := busSet_data_clock_events s1 (d + 1) (putsOut s.params (f b) 1)
    (putsOut s.params (f b) 3)
  simp only [lineEvents_of_traits_eq htraits] at hevents
  have hfixed : SameFixed s t := by rw [ht]; constructor <;> simp [s1]
  rw [ht] at hfixed ⊢
  refine ⟨rfl, hfixed, ?_, ?_, hlatches, hline, hevents⟩
  · simp [busSet_retryArmed_of_ne_atn, s1]
  · simp only [State.returns_drives, busSet_drives_of_ne_atn, ne_eq, reduceCtorEq,
      not_false_eq_true]
    exact congrArg State.drives (h.mapCtl_eq rfl)

/-- Settles O49: both writes are a register change, then the driven pins. -/
theorem busChipDrivesLines : Obligations.BusChipDrivesLines := by
  intro s d dr b dd v h hP i b1 hi
  rcases hi with ⟨rfl, rfl⟩ | ⟨rfl, rfl⟩
  · exact ⟨_, h.onVia _, h.mapVia_applyBusOutputs hP fun c => { c with orb := v }⟩
  · exact ⟨_, h.onVia _, h.mapVia_applyBusOutputs hP fun c => { c with ddrb := v }⟩

end Sys2Proof.Machine
end

section
/-! The TPI (R240 to R264): what an operation of a TPI drive leaves of the state, port C (R247,
R248), the source a read of `air` reports (R258), the acknowledge line (R260), an interrupt input
(R256) and the host's side of the handshake (R263, R264). -/

namespace Sys2Proof.Machine

set_option Elab.async false

/-! ### An operation of a TPI drive (R62, R94) -/

theorem onTpiDrive_of_tpi {s : State} {d : Nat} {dr : Drive} {c : TpiChip}
    (hdr : s.drives[d]? = some dr) (hctl : dr.ctl = .tpi c) (k : Drive → TpiChip → Out) :
    onTpiDrive s d k = k dr c := by
  simp [onTpiDrive, onDrive_of_some hdr, hctl]

theorem TpiAt.onTpi {s : State} {d : Nat} {dr : Drive} {c : TpiChip} (h : TpiAt s d dr c)
    (k : Drive → TpiChip → Out) : onTpi s d k = k dr c :=
  (onTpiDrive_of_tpi h.present h.chip _).trans (if_pos h.powered)

theorem onTpi_of_off {s : State} {d : Nat} {dr : Drive} {c : TpiChip}
    (hdr : s.drives[d]? = some dr) (hctl : dr.ctl = .tpi c) (hoff : dr.powered = false)
    (k : Drive → TpiChip → Out) : onTpi s d k = .refused (.drivePoweredOff d) :=
  (onTpiDrive_of_tpi hdr hctl _).trans (if_neg (by simp [hoff]))

/-! ### A register change, alone and with `IRQ.UPDATE` (R277) -/

/-- A change of the chip alone, which leaves `c1`. -/
theorem TpiAt.mapTpi_becomes {s : State} {d : Nat} {dr : Drive} {c c1 : TpiChip}
    (h : TpiAt s d dr c) {f : TpiChip → TpiChip} (hf : f c = c1) :
    DriveBecomes d s ((s.mapTpi d f).returns .none) { dr with ctl := .tpi c1 } .none := by
  have hbecomes := driveBecomes_mapDrive h.present
    (fun dr => { dr with ctl := dr.ctl.mapTpi f }) .none
  simp only [h.chip, Controller.mapTpi, hf] at hbecomes
  exact hbecomes

theorem tpiLatchIrq_sameRegs (c : TpiChip) (new : Bool) : c.SameRegs (c.latchIrq new) := by
  unfold TpiChip.latchIrq
  split <;> exact ⟨rfl, rfl, rfl, rfl, rfl, rfl, rfl, rfl, rfl, rfl, rfl⟩

/-- R277: the retry flag of the one chip, which meets no other. -/
theorem tpiLatchIrq_irqRetry (c : TpiChip) (new : Bool) :
    (c.latchIrq new).irqRetry = retryAfter c.chipIrq new c.irqRetry false := by
  unfold TpiChip.latchIrq retryAfter
  split
  · rfl
  · simp

/-- R277: a register change of a TPI drive that leaves the chip `c1`, and `IRQ.UPDATE`. -/
theorem mapCtl_irqUpdate_tpiUpdated {s : State} {d : Nat} {dr : Drive} {c1 : TpiChip}
    {f : Controller → Controller} (hdr : s.drives[d]? = some dr) (hf : f dr.ctl = .tpi c1) :
    TpiUpdated d s ((s.mapCtl d f).irqUpdate d) dr c1 := by
  have hchip : (f dr.ctl).updateIrq s.params = .tpi (c1.latchIrq (tpiIrqFn s.params c1)) :=
    congrArg (Controller.updateIrq s.params) hf
  refine ⟨_, _, mapCtl_irqUpdate_drive hdr f, hchip, updateIrq_sameMechanism ..,
    tpiLatchIrq_sameRegs .., ?_, mapCtl_irqUpdate_settled hdr f, mapCtl_irqUpdate_only s d f⟩
  rw [tpiLatchIrq_irqRetry, tlatch_chipIrq]

/-- The value an operation returns is no part of what `TpiUpdated` says. -/
theorem TpiUpdated.returns {d : Nat} {s t : State} {dr : Drive} {c1 : TpiChip}
    (h : TpiUpdated d s t dr c1) (r : Result) : TpiUpdated d s (t.returns r) dr c1 := by
  obtain ⟨dr', c', hdr, hctl, hmech, hregs, hwaits, hsettled, honly⟩ := h
  obtain ⟨hcurrent, hcpu, hevents, hretry⟩ := hsettled
  obtain ⟨⟨hparams, hpar, hrequests, hdraws⟩, hbus, hothers⟩ := honly
  exact ⟨dr', c', hdr, hctl, hmech, hregs, hwaits, ⟨hcurrent, hcpu, hevents, hretry⟩,
    ⟨⟨hparams, hpar, hrequests, hdraws⟩, hbus, hothers⟩⟩

theorem TpiAt.mapCtl_updated {s : State} {d : Nat} {dr : Drive} {c c1 : TpiChip}
    (h : TpiAt s d dr c) {f : Controller → Controller} (hf : f (.tpi c) = .tpi c1) (r : Result) :
    TpiUpdated d s (((s.mapCtl d f).irqUpdate d).returns r) dr c1 :=
  (mapCtl_irqUpdate_tpiUpdated h.present (h.chip ▸ hf)).returns r

/-! ### Plain registers (R245, R246, R249 to R254, R259, R261, R262) -/

/-- Settles O53: each access is a read of a stored byte, a read-back, or a chip change alone. -/
theorem tpiPlainRegisters : Obligations.TpiPlainRegisters := by
  intro s d dr c v h
  exact ⟨⟨_, h.onTpi _, readBack_readsBack _ _ _⟩, ⟨_, h.onTpi _, readBack_readsBack _ _ _⟩,
    h.onTpi _, h.onTpi _, h.onTpi _, h.onTpi _, h.onTpi _, ⟨_, h.onTpi _, h.mapTpi_becomes rfl⟩,
    ⟨_, h.onTpi _, h.mapTpi_becomes rfl⟩, ⟨_, h.onTpi _, h.mapTpi_becomes rfl⟩,
    ⟨_, h.onTpi _, h.mapTpi_becomes rfl⟩⟩

/-! ### Port C (R247, R248) -/

/-- R247: the pins are assigned in this order, so of two on one position the last one stands. -/
theorem bitAt_tpiPinsC (P : Params) (sel : Bits2) (hsDav sync : Bool) (j : Fin 8) :
    bitAt (tpiPinsC P sel hsDav sync) j =
      if j = P.pinmapTpi.devsel then sel.getLsbD 0
      else if j = P.pinmapTpi.sync then P.syncActiveLow ^^ sync
      else if j = P.pinmapTpi.dav then hsDav
      else bitAt P.floatIn j := by
  have hlow : (if P.syncActiveLow then !sync else sync) = (P.syncActiveLow ^^ sync) := by
    cases P.syncActiveLow <;> simp
  simp only [tpiPinsC, bitAt_withBit, hlow]

/-- R248: drawing bits 5:0 leaves bits 7:6. -/
theorem bitAt_append_of_six_le (r : Byte) (low : BitVec 6) {j : Fin 8} (hj : 6 ≤ j.val) :
    bitAt (r.extractLsb' 6 2 ++ low) j = bitAt r j := by
  have hlow : ¬ j.val < 6 := by omega
  have hhigh : j.val - 6 < 2 := by omega
  rw [bitAt, BitVec.getLsbD_append, if_neg hlow, BitVec.getLsbD_extractLsb', decide_eq_true hhigh,
    Bool.true_and, Nat.add_sub_cancel' hj, bitAt]

/-- R247, R248: a read of port C in either mode. -/
theorem TpiAt.exec_tpiRdPc {s : State} {d : Nat} {dr : Drive} {c : TpiChip} (h : TpiAt s d dr c) :
    let r := readBack (tpiPinsC s.params dr.devSel c.hsDav dr.mech.sync) c.prc c.ddrc
    exec (.tpiRdPc d) s =
      if crMc s.params c then
        done s.drawn (.byte (r.extractLsb' 6 2 ++ Config.drawSix s.draws))
      else done s (.byte r) :=
  h.onTpi _

/-- Settles O54: the read-back law over the pins, below the draw in interrupt mode. -/
theorem tpiPortCRead : Obligations.TpiPortCRead := by
  intro s d dr c h m pin
  have hread : ReadsBack (readBack (tpiPinsC s.params dr.devSel c.hsDav dr.mech.sync) c.prc c.ddrc)
      c.prc c.ddrc pin := by
    intro j
    rw [readBack_readsBack, bitAt_tpiPinsC]
  refine ⟨fun hmc => ?_, fun hmc => ?_⟩
  · exact ⟨_, h.exec_tpiRdPc.trans (if_neg (by simp [crMc, hmc])), hread⟩
  · exact ⟨_, s.draws + 1, h.exec_tpiRdPc.trans (if_pos hmc),
      fun j hj => (bitAt_append_of_six_le _ _ hj).trans (hread j)⟩

/-! ### The interrupt-active register (R258) -/

/-- R258: the source a priorized read reports, when one is pending. -/
theorem highestPending_of_highest {air : Byte} {i : Fin 5} (hi : air.getLsbD i.val = true)
    (habove : ∀ j : Fin 5, i < j → air.getLsbD j.val = false) :
    highestPending air = 1#8 <<< i.val := by
  obtain ⟨i, h5⟩ := i
  have hbit (j : Nat) (hj : j < 5) (hij : i < j) : air.getLsbD j = false := habove ⟨j, hj⟩ hij
  interval_cases i <;> simp [-BitVec.getLsbD_eq_getElem, highestPending, hbit, hi]

theorem highestPending_of_none {air : Byte} (h : air.extractLsb' 0 5 = 0) :
    highestPending air = 0 := by
  have hbit (j : Nat) (hj : j < 5) : air.getLsbD j = false := by
    have hget := congrArg (fun x => x.getLsbD j) h
    simpa [hj] using hget
  simp [-BitVec.getLsbD_eq_getElem, highestPending, hbit]

/-- Settles O55: the reported bits are cleared, and `IRQ.UPDATE` follows. -/
theorem airRead : Obligations.AirRead := by
  intro s d dr c h
  refine ⟨_, airReported s.params c, c.air &&& ~~~(airReported s.params c), h.onTpi _, rfl,
    h.mapCtl_updated rfl _, fun hip => ?_, fun hip hnone => ?_, fun hip i hi habove => ?_⟩
  · have hall : airReported s.params c = c.air := if_neg (by simp [crIp, hip])
    simp [hall]
  · have hzero : airReported s.params c = 0 := (if_pos hip).trans (highestPending_of_none hnone)
    exact ⟨hzero, by rw [hzero, BitVec.ofNat_eq_ofNat, BitVec.not_zero, BitVec.and_allOnes]⟩
  · have hhighest : airReported s.params c = 1#8 <<< i.val :=
      (if_pos hip).trans (highestPending_of_highest hi habove)
    exact ⟨hhighest, by rw [hhighest]⟩

/-! ### The acknowledge line (R255, R257, R260) -/

/-- R260: in ordinary mode the line follows the driven pin, in interrupt mode it stands. -/
theorem applyAck_eq (P : Params) (c : TpiChip) :
    c.applyAck P = { c with
      hsAck := if bitAt c.cr P.tpiCr.mc then c.hsAck
        else if bitAt c.ddrc P.pinmapTpi.ack then bitAt c.prc P.pinmapTpi.ack else true } := by
  unfold TpiChip.applyAck crMc
  cases bitAt c.cr P.tpiCr.mc <;> rfl

/-- Settles O56: each write is a register change and `apply_ack`; that of `cr` has `IRQ.UPDATE`. -/
theorem acknowledgeFollowsPortC : Obligations.AcknowledgeFollowsPortC := by
  intro s d dr c v h mc a ack
  exact ⟨⟨_, h.onTpi _, h.mapTpi_becomes (applyAck_eq ..)⟩,
    ⟨_, h.onTpi _, h.mapTpi_becomes (applyAck_eq ..)⟩,
    ⟨_, h.onTpi _, rfl, h.mapCtl_updated (congrArg Controller.tpi (applyAck_eq ..)) _⟩⟩

/-! ### Interrupt inputs (R256) -/

/-- R256: inputs 0 to 2 are active on a falling edge, 3 and 4 as `cr` selects. -/
theorem tpiEdgeActive_iff (P : Params) (c : TpiChip) (n : Fin 5) (level : Bool) :
    tpiEdgeActive P c n level = true ↔
      if n.val < 3 then level = false
      else if n.val = 3 then level = bitAt c.cr P.tpiCr.ie3 else level = bitAt c.cr P.tpiCr.ie4 := by
  fin_cases n <;> simp [tpiEdgeActive]

theorem fires_iff (P : Params) (c : TpiChip) (n : Fin 5) (level : Bool) :
    c.fires P n level = true ↔ bitAt c.cr P.tpiCr.mc = true ∧ c.irqLevel[n] ≠ level ∧
      (if n.val < 3 then level = false
        else if n.val = 3 then level = bitAt c.cr P.tpiCr.ie3
        else level = bitAt c.cr P.tpiCr.ie4) ∧
      c.ddrc.getLsbD n.val = true ∧ c.air.getLsbD n.val = false := by
  rw [← tpiEdgeActive_iff]
  simp [TpiChip.fires, crMc, and_assoc]

/-- R256: a level change at a powered TPI drive. -/
theorem TpiAt.exec_tpiIrqin {s : State} {d : Nat} {dr : Drive} {c : TpiChip} (h : TpiAt s d dr c)
    (n : Fin 5) (level : Bool) :
    let s1 := s.mapTpi d fun t => t.setLevel n level
    exec (.tpiIrqin d n level) s =
      .next ((if c.fires s.params n level then (s1.mapTpi d fun t => t.setPending n).irqUpdate d
        else s1).returns .none) :=
  h.onTpi _

/-- Settles O57: the two changes of a firing input are one change of the chip, then `IRQ.UPDATE`. -/
theorem interruptInput : Obligations.InterruptInput := by
  intro s d dr c n level h m active fires c1
  have hfires : c.fires s.params n level = true ↔ fires := fires_iff ..
  refine ⟨fun hyes => ⟨_, h.exec_tpiIrqin n level, rfl, ?_⟩,
    fun hno => ⟨_, h.exec_tpiIrqin n level, ?_⟩⟩
  · rw [if_pos (hfires.2 hyes), State.mapTpi, State.mapTpi, mapCtl_mapCtl]
    exact h.mapCtl_updated rfl _
  · rw [if_neg fun hyes => hno (hfires.1 hyes)]
    exact h.mapTpi_becomes rfl

/-! ### The host's side of the handshake (R263, R264) -/

/-- R264: the acknowledge line of a sound drive that is off rests at 1. -/
theorem hsAck_of_off {P : Params} {dr : Drive} {c : TpiChip} (h : dr.Sound P)
    (hctl : dr.ctl = .tpi c) (hoff : dr.powered = false) : c.hsAck = true := by
  have hidle := h.ackOff hoff
  rwa [hctl] at hidle

/-- Settles O58: the write needs power, the read does not; off, the invariant says what it reads. -/
theorem hostHandshake : Obligations.HostHandshake := by
  intro s d dr c v hdr hctl
  have hread : exec (.tpiHostrd d) s = .next (s.returns (.bit c.hsAck)) :=
    onTpiDrive_of_tpi hdr hctl _
  refine ⟨fun hoff => onTpi_of_off hdr hctl hoff _, fun hon => ?_, hread, fun hs hoff => ?_⟩
  · have hat : TpiAt s d dr c := ⟨hdr, hon, hctl⟩
    exact ⟨_, hat.onTpi _, hat.mapTpi_becomes rfl⟩
  · rw [hread, hsAck_of_off (hs.drive hdr) hctl hoff]

end Sys2Proof.Machine
end

section
/-! Waiting interrupt requests (R50, R277, R291), read off a state as its `controllers`: `IRQ.UPDATE`
keeps a request that waits while its chip requests, and every operation that detaches no drive
changes a controller by a register write, by `IRQ.UPDATE`, or by a delivery of the retry timer. -/

namespace Sys2Proof.Machine

set_option Elab.async false

/-! ### The waiting requests of one controller (R277) -/

/-- A request that waits in `k` waits in `k'`, unless its chip is silent there. -/
def Controller.HoldsWaiting (k k' : Controller) : Prop :=
  ∀ c, k.waits c = true → k'.asks c = true → k'.waits c = true

/-- Each chip requests and waits in `k'` as in `k`. -/
def Controller.SameRequests (k k' : Controller) : Prop :=
  ∀ c, k'.asks c = k.asks c ∧ k'.waits c = k.waits c

theorem Controller.HoldsWaiting.refl (k : Controller) : k.HoldsWaiting k := fun _ hwaits _ => hwaits

theorem Controller.SameRequests.refl (k : Controller) : k.SameRequests k := fun _ => ⟨rfl, rfl⟩

theorem Controller.SameRequests.trans {k k' k'' : Controller} (h : k.SameRequests k')
    (h' : k'.SameRequests k'') : k.SameRequests k'' :=
  fun c => ⟨(h' c).1.trans (h c).1, (h' c).2.trans (h c).2⟩

theorem Controller.SameRequests.holdsWaiting {k k' : Controller} (h : k.SameRequests k') :
    k.HoldsWaiting k' :=
  fun c hwaits _ => (h c).2.trans hwaits

theorem mapVia_sameRequests {f : ViaChip → ViaChip} (c : ViaId) (k : Controller)
    (hf : ∀ x, (f x).chipIrq = x.chipIrq ∧ (f x).irqRetry = x.irqRetry :=
      by exact fun _ => ⟨rfl, rfl⟩) : k.SameRequests (k.mapVia c f) := by
  cases k with
  | tpi t => exact .refl _
  | via b dd =>
    intro e
    cases c <;> cases e <;> simp [Controller.mapVia, Controller.asks, Controller.waits, hf]

theorem mapTpi_sameRequests {f : TpiChip → TpiChip} (k : Controller)
    (hf : ∀ x, (f x).chipIrq = x.chipIrq ∧ (f x).irqRetry = x.irqRetry :=
      by exact fun _ => ⟨rfl, rfl⟩) : k.SameRequests (k.mapTpi f) := by
  cases k with
  | via b dd => exact .refl _
  | tpi t =>
    intro e
    cases e <;> simp [Controller.mapTpi, Controller.asks, Controller.waits, hf]

theorem clear_sameRequests (k : Controller) : k.SameRequests k.clear := by
  cases k <;> intro e <;> cases e <;> exact ⟨rfl, rfl⟩

/-- R277: a flag that is set stands while the chip requests, whatever it did before. -/
theorem retryAfter_of_waiting (was other : Bool) : retryAfter was true true other = true := by
  simp [retryAfter]

/-- R277: `IRQ.UPDATE` keeps every waiting request of a chip that requests after it. -/
theorem updateIrq_holdsWaiting (P : Params) (k : Controller) : k.HoldsWaiting (k.updateIrq P) := by
  intro c hwaits hasks
  cases k with
  | via b dd =>
    obtain ⟨b', dd', hchips, -, -, hbRetry, hddRetry⟩ := updateIrq_via P b dd
    rw [hchips] at hasks ⊢
    cases c with
    | viab =>
      obtain ⟨hwaits, hasks⟩ : b.irqRetry = true ∧ b'.chipIrq = true := ⟨hwaits, hasks⟩
      rw [hwaits, hasks, retryAfter_of_waiting] at hbRetry
      exact hbRetry
    | viad =>
      obtain ⟨hwaits, hasks⟩ : dd.irqRetry = true ∧ dd'.chipIrq = true := ⟨hwaits, hasks⟩
      rw [hwaits, hasks, retryAfter_of_waiting] at hddRetry
      exact hddRetry
    | tpi => cases hwaits
  | tpi t =>
    cases c with
    | tpi =>
      have hnow : tpiIrqFn P t = true := (tlatch_chipIrq ..).symm.trans hasks
      have hwas : t.irqRetry = true := hwaits
      refine (tpiLatchIrq_irqRetry ..).trans ?_
      rw [hnow, hwas, retryAfter_of_waiting]
    | viab | viad => cases hwaits

/-- R277: a register write that no stored output depends on, then `IRQ.UPDATE`. -/
theorem Controller.SameRequests.updateIrq {k k' : Controller} (h : k.SameRequests k') (P : Params) :
    k.HoldsWaiting (k'.updateIrq P) :=
  fun c hwaits hasks => updateIrq_holdsWaiting P k' c ((h c).2.trans hwaits) hasks

/-- R279: a delivery changes no output, and takes the flag of a chip beside which none requests. -/
theorem deliver_asks_waits (k : Controller) (c : ChipId) :
    k.deliver.asks c = k.asks c ∧ k.deliver.waits c = (k.waits c && k.otherAsks c) := by
  cases k <;> cases c <;>
    simp [Controller.deliver, Controller.asks, Controller.waits, Controller.otherAsks]

/-! ### The controllers of a state -/

/-- The controllers of all drives. -/
def State.controllers (s : State) : List Controller := s.drives.map Drive.ctl

theorem controllers_of_some {s : State} {d : Nat} {dr : Drive} (h : s.drives[d]? = some dr) :
    s.controllers[d]? = some dr.ctl := by
  simp [State.controllers, h]

theorem drive_of_controller {s : State} {d : Nat} {k : Controller} (h : s.controllers[d]? = some k) :
    ∃ dr, s.drives[d]? = some dr ∧ dr.ctl = k := by
  simpa [State.controllers] using h

theorem mapDrive_controllers {f : Drive → Drive} {g : Controller → Controller}
    (hfg : ∀ dr, (f dr).ctl = g dr.ctl) (s : State) (d : Nat) :
    (s.mapDrive d f).controllers = s.controllers.modify d g :=
  map_modify hfg s.drives d

theorem mapDrive_keeps_controllers {f : Drive → Drive} (hf : ∀ dr, (f dr).ctl = dr.ctl) (s : State)
    (d : Nat) : (s.mapDrive d f).controllers = s.controllers := by
  rw [mapDrive_controllers (g := id) hf, List.modify_id]

@[simp] theorem mapCtl_controllers (s : State) (d : Nat) (f : Controller → Controller) :
    (s.mapCtl d f).controllers = s.controllers.modify d f :=
  mapDrive_controllers (fun _ => rfl) s d

@[simp] theorem irqUpdate_controllers (s : State) (d : Nat) :
    (s.irqUpdate d).controllers = s.controllers.modify d (Controller.updateIrq s.params) := by
  rw [State.controllers, irqUpdate_drives]
  exact map_modify (fun _ => by rfl) s.drives d

/-- A register change, then `IRQ.UPDATE`. -/
theorem mapCtl_irqUpdate_controllers (s : State) (d : Nat) (f : Controller → Controller) :
    ((s.mapCtl d f).irqUpdate d).controllers =
      s.controllers.modify d (Controller.updateIrq s.params ∘ f) := by
  simp [List.modify_modify_eq]

@[simp] theorem applyBusOutputs_controllers (s : State) (d : Nat) :
    (s.applyBusOutputs d).controllers = s.controllers :=
  congrArg (List.map Drive.ctl) (applyBusOutputs_drives s d)

@[simp] theorem applyControl_controllers (s : State) (d : Nat) :
    (s.applyControl d).controllers = s.controllers := by
  unfold State.applyControl
  split
  · rfl
  · split
    · rfl
    · exact mapDrive_keeps_controllers (fun _ => Drive.control_ctl ..) s d

@[simp] theorem applyPortB_controllers (s : State) (d : Nat) (c : ViaId) :
    (applyPortB s d c).controllers = s.controllers := by
  cases c <;> simp [applyPortB]

/-! ### What an operation does to the waiting requests of a state -/

/-- Operation `i` dropped no waiting request of a chip that still requests, but where R280 or R279
has it: a drive detached, or the retry timer with the other chip silent. -/
def HoldsWaiting (i : Instr) (s t : State) : Prop :=
  ∀ (d : Nat) (k k' : Controller) (c : ChipId), s.controllers[d]? = some k →
    t.controllers[d]? = some k' → k.waits c = true → k'.asks c = true → detaches d i = false →
    (i = .irqRetry → k.otherAsks c = true) → k'.waits c = true

section
variable {i : Instr} {s t u : State} {d : Nat}

theorem HoldsWaiting.completes (h : HoldsWaiting i s t) (r : Result) :
    Ensures (done t r) (HoldsWaiting i s) :=
  ensures_done h

/-- An operation that changes the controller of drive `d` alone. -/
theorem holdsWaiting_of_modify {f : Controller → Controller}
    (h : t.controllers = s.controllers.modify d f)
    (hf : detaches d i = false → ∀ k : Controller, k.HoldsWaiting (f k)) : HoldsWaiting i s t := by
  intro e k k' c hk hk' hwaits hasks hdetaches _
  rw [h] at hk'
  rcases getElem?_modify_some hk' with ⟨-, hsame⟩ | ⟨rfl, x, hx, rfl⟩
  · obtain rfl := Option.some.inj (hk.symm.trans hsame)
    exact hwaits
  · obtain rfl := Option.some.inj (hk.symm.trans hx)
    exact hf hdetaches k c hwaits hasks

theorem holdsWaiting_of_eq (h : t.controllers = s.controllers) : HoldsWaiting i s t :=
  holdsWaiting_of_modify (d := 0) (f := id) (by rw [h, List.modify_id]) fun _ => .refl

/-- A register write that changes no output and no retry flag. -/
theorem mapCtl_holdsWaiting {f : Controller → Controller}
    (hf : ∀ k : Controller, k.SameRequests (f k)) (s : State) (d : Nat) : HoldsWaiting i s (s.mapCtl d f) :=
  holdsWaiting_of_modify (mapCtl_controllers s d f) fun _ k => (hf k).holdsWaiting

/-- Such a write, then `IRQ.UPDATE`. -/
theorem mapCtl_irqUpdate_holdsWaiting {f : Controller → Controller}
    (hf : ∀ k : Controller, k.SameRequests (f k)) (s : State) (d : Nat) :
    HoldsWaiting i s ((s.mapCtl d f).irqUpdate d) :=
  holdsWaiting_of_modify (mapCtl_irqUpdate_controllers s d f) fun _ k => (hf k).updateIrq s.params

theorem irqUpdate_holdsWaiting (s : State) (d : Nat) : HoldsWaiting i s (s.irqUpdate d) :=
  holdsWaiting_of_modify (irqUpdate_controllers s d) fun _ => updateIrq_holdsWaiting s.params

theorem setCa1_holdsWaiting (s : State) (d : Nat) (c : ViaId) (v : Bool) :
    HoldsWaiting i s (s.setCa1 d c v) :=
  mapCtl_irqUpdate_holdsWaiting (fun k => mapVia_sameRequests c k) s d

/-- A part of an operation that changes no controller can be left out. -/
theorem HoldsWaiting.after (h : HoldsWaiting i u t) (hu : u.controllers = s.controllers) :
    HoldsWaiting i s t := by
  intro d k k' c hk
  exact h d k k' c (hu ▸ hk)

theorem HoldsWaiting.before (h : HoldsWaiting i s u) (ht : t.controllers = u.controllers) :
    HoldsWaiting i s t := by
  intro d k k' c hk hk'
  exact h d k k' c hk (ht ▸ hk')

theorem ready_holdsWaiting (s : State) (d : Nat) : HoldsWaiting i s (s.ready d) := by
  unfold State.ready
  split
  · exact holdsWaiting_of_eq rfl
  · split
    · exact (setCa1_holdsWaiting (s.emit (.readyPulse d)) d .viad true).after rfl
    · exact holdsWaiting_of_eq rfl

theorem tick_holdsWaiting (s : State) (d : Nat) : HoldsWaiting i s (s.tick d) :=
  (ready_holdsWaiting _ d).after (mapDrive_keeps_controllers (Drive.turn_ctl s.params) s d)

/-- R165, R221: what a notification does to the drive it reaches. -/
theorem notified_holdsWaiting (P : Params) (l : Line) (v : Bool) (dr : Drive) :
    dr.ctl.HoldsWaiting (Drive.notified P l v dr).ctl := by
  unfold Drive.notified
  split
  · split
    · exact Controller.SameRequests.updateIrq (mapVia_sameRequests .viab dr.ctl) P
    · exact .refl _
  · exact .refl _

/-- A change of the drives that keeps the waiting requests of each. -/
theorem holdsWaiting_of_drives
    (h : ∀ (d : Nat) (dr dr' : Drive), s.drives[d]? = some dr → t.drives[d]? = some dr' →
      dr.ctl.HoldsWaiting dr'.ctl) : HoldsWaiting i s t := by
  intro d k k' c hk hk' hwaits hasks _ _
  obtain ⟨dr, hdr, rfl⟩ := drive_of_controller hk
  obtain ⟨dr', hdr', rfl⟩ := drive_of_controller hk'
  exact h d dr dr' hdr hdr' c hwaits hasks

theorem notify_holdsWaiting (s : State) (q : Nat) (l : Line) (v : Bool) :
    HoldsWaiting i s (s.notify q l v) := by
  cases q with
  | zero => exact holdsWaiting_of_eq rfl
  | succ d =>
    refine holdsWaiting_of_drives fun e dr dr' hdr hdr' => ?_
    rw [notify_drives] at hdr'
    rcases getElem?_modify_some hdr' with ⟨-, hsame⟩ | ⟨rfl, x, hx, rfl⟩
    · obtain rfl := Option.some.inj (hdr.symm.trans hsame)
      exact .refl _
    · obtain rfl := Option.some.inj (hdr.symm.trans hx)
      exact notified_holdsWaiting _ _ _ _

/-- R161: one line change notifies each drive at most once. -/
theorem notifyAll_holdsWaiting (s : State) (l : Line) (v : Bool) :
    HoldsWaiting i s (s.notifyAll l v) := by
  refine holdsWaiting_of_drives fun d dr dr' hdr hdr' => ?_
  rw [State.notifyAll, foldl_notify_drives, hdr] at hdr'
  split at hdr'
  · obtain rfl := Option.some.inj hdr'
    exact notified_holdsWaiting _ _ _ _
  · obtain rfl := Option.some.inj hdr'
    exact .refl _

theorem busSet_holdsWaiting (s : State) (p : Nat) (l : Line) (v : Bool) :
    HoldsWaiting i s (s.busSet p l v) := by
  rcases busSet_cases s p l v with ⟨-, heq⟩ | ⟨-, heq⟩
  · rw [heq]
    exact holdsWaiting_of_eq rfl
  · rw [heq]
    exact (notifyAll_holdsWaiting _ _ _).after rfl

end

/-! ### The retry timer (R279) -/

/-- What a firing of the retry timer makes of a drive. -/
def Drive.retried (dr : Drive) : Drive :=
  if dr.powered then { dr with ctl := dr.ctl.deliver } else dr

theorem Drive.retried_of_on {dr : Drive} (h : dr.powered = true) :
    dr.retried = { dr with ctl := dr.ctl.deliver } :=
  if_pos h

theorem Drive.retried_of_off {dr : Drive} (h : dr.powered = false) : dr.retried = dr :=
  if_neg (by simp [h])

/-- The events of the requests of drive `d` that the retry timer delivers. -/
def State.deliveries (s : State) (d : Nat) : List Event :=
  match s.drives[d]? with
  | none => []
  | some dr => if dr.powered then dr.ctl.deliverable.map fun c => .irqDelivered d c else []

/-- Everything a firing does for drive `d`. -/
theorem retryDrive_eq (s : State) (d : Nat) :
    s.retryDrive d = { s with
      drives := s.drives.modify d Drive.retried
      events := (s.deliveries d).reverse ++ s.events } := by
  unfold State.retryDrive State.deliveries
  cases hdr : s.drives[d]? with
  | none => simp [modify_of_none _ hdr]
  | some dr =>
    cases hon : dr.powered with
    | true =>
      have hdrives := modify_congr_at (f := fun dr => { dr with ctl := dr.ctl.deliver })
        (g := Drive.retried) hdr (Drive.retried_of_on hon).symm
      simp [hon, foldl_emit_eq, State.mapCtl, State.mapDrive, hdrives]
    | false => simp [hon, modify_id_at hdr (Drive.retried_of_off hon)]

/-- After the first `n` drives: each of them is retried, the others stand. -/
theorem foldl_retryDrive (s : State) (n : Nat) : ∃ drives : List Drive,
    (∀ d, drives[d]? = if d < n then s.drives[d]?.map Drive.retried else s.drives[d]?) ∧
    (List.range n).foldl State.retryDrive s = { s with
      drives := drives
      events := ((List.range n).flatMap s.deliveries).reverse ++ s.events } := by
  induction n with
  | zero => exact ⟨s.drives, by simp, rfl⟩
  | succ n ih =>
    obtain ⟨drives, hdrives, heq⟩ := ih
    have hown : State.deliveries { s with
        drives := drives
        events := ((List.range n).flatMap s.deliveries).reverse ++ s.events } n =
          s.deliveries n := by
      simp [State.deliveries, hdrives]
    refine ⟨drives.modify n Drive.retried, fun d => ?_, ?_⟩
    · rw [List.getElem?_modify, hdrives]
      by_cases hd : n = d
      · simp [hd]
      · have hlt : d < n + 1 ↔ d < n := by omega
        simp [hd, hlt]
    · rw [List.range_succ, List.foldl_append, List.foldl_cons, List.foldl_nil, heq, retryDrive_eq,
        hown]
      simp

/-- R279: everything a firing does, before the retry timer is recounted. -/
theorem foldl_retryDrive_all (s : State) :
    (List.range s.drives.length).foldl State.retryDrive s = { s with
      drives := s.drives.map Drive.retried
      events := ((List.range s.drives.length).flatMap s.deliveries).reverse ++ s.events } := by
  obtain ⟨drives, hdrives, heq⟩ := foldl_retryDrive s s.drives.length
  have hall : drives = s.drives.map Drive.retried := by
    apply List.ext_getElem?
    intro d
    rw [hdrives, List.getElem?_map]
    by_cases hd : d < s.drives.length
    · rw [if_pos hd]
    · simp [hd]
  rw [heq, hall]

/-- R279: the retry timer keeps a waiting request beside a chip that requests. -/
theorem irqRetry_holdsWaiting (s : State) : Ensures (execIrqRetry s) (HoldsWaiting .irqRetry s) := by
  unfold execIrqRetry
  split
  · rw [foldl_retryDrive_all]
    refine ensures_done fun d k k' c hk hk' hwaits _ _ hother => ?_
    obtain ⟨dr, hdr, rfl⟩ := drive_of_controller hk
    obtain rfl : dr.retried.ctl = k' := by simpa [State.controllers, hdr] using hk'
    cases hon : dr.powered with
    | true =>
      rw [Drive.retried_of_on hon, (deliver_asks_waits dr.ctl c).2, hwaits, hother rfl]
      rfl
    | false => rwa [Drive.retried_of_off hon]
  · exact ensures_refused _ _

/-! ### Every operation -/

theorem sysPwron_holdsWaiting (d : Nat) (s : State) :
    Ensures (execSysPwron d s) (HoldsWaiting (.sysPwron d) s) := by
  refine ensures_onDrive fun dr _ => ?_
  split
  · exact ensures_refused _ _
  · refine HoldsWaiting.completes (HoldsWaiting.after (mapCtl_irqUpdate_holdsWaiting
      clear_sameRequests _ d) ?_) _
    exact mapDrive_keeps_controllers (fun _ => by rfl) s d

/-- R303: the other drives hear at most an edge of ATN. -/
theorem sysPwroff_holdsWaiting (d : Nat) (s : State) :
    Ensures (execSysPwroff d s) (HoldsWaiting (.sysPwroff d) s) := by
  refine ensures_onPowered fun _ _ _ => ensures_done ?_
  have hrelease : HoldsWaiting (.sysPwroff d) s ((s.switchOff d).release (1 + d)) := by
    intro e k k' c hk hk' hwaits hasks hdetaches
    have hne : e ≠ d := by
      rintro rfl
      simp [detaches] at hdetaches
    have hsame : (s.switchOff d).controllers[e]? = some k := by
      rw [← hk, State.controllers, State.controllers, List.getElem?_map, List.getElem?_map,
        (switchOff_local s d).others.2 e hne]
    rw [State.controllers, (release_quiet _ _).1] at hk'
    exact busSet_holdsWaiting _ _ _ _ e k k' c hsame hk' hwaits hasks hdetaches
  exact hrelease

theorem sysMount_holdsWaiting (d : Nat) (f : Format) (bytes : List Host.Cell) (len : Nat)
    (wp : Bool) (s : State) :
    Ensures (execSysMount d f bytes len wp s) (HoldsWaiting (.sysMount d f bytes len wp) s) := by
  refine ensures_onDrive fun dr _ => ?_
  split
  · exact ensures_refused _ _
  · refine (holdsWaiting_of_eq ?_).completes _
    exact mapDrive_keeps_controllers (fun _ => by exact Drive.regen_ctl ..) s d

theorem sysUnmount_holdsWaiting (d : Nat) (s : State) :
    Ensures (execSysUnmount d s) (HoldsWaiting (.sysUnmount d) s) :=
by
  refine ensures_onDrive fun _ _ => HoldsWaiting.completes ?_ _
  have hunmount : HoldsWaiting (.sysUnmount d) s (s.mapDrive d fun dr => dr.unmount s.params) :=
    holdsWaiting_of_modify (mapDrive_controllers (fun dr => Drive.unmount_ctl dr s.params) s d)
      (by simp [detaches])
  exact hunmount.before rfl

theorem mechTick_holdsWaiting (d : Nat) (s : State) :
    Ensures (execMechTick d s) (HoldsWaiting (.mechTick d) s) := by
  refine ensures_onDrive fun dr _ => ?_
  split
  · exact (tick_holdsWaiting s d).completes _
  · exact ensures_refused _ _

/-- R260: `apply_ack` leaves the output and the retry flag of the chip. -/
theorem applyAck_sameRequests (P : Params) {f : TpiChip → TpiChip} (k : Controller)
    (hf : ∀ x, (f x).chipIrq = x.chipIrq ∧ (f x).irqRetry = x.irqRetry :=
      by exact fun _ => ⟨rfl, rfl⟩) : k.SameRequests (k.mapTpi fun t => (f t).applyAck P) := by
  refine mapTpi_sameRequests k fun t => ?_
  obtain ⟨-, -, hchip, hretry⟩ := applyAck_keeps P (f t)
  exact ⟨hchip.trans (hf t).1, hretry.trans (hf t).2⟩

theorem tpiRdPc_holdsWaiting (d : Nat) (s : State) :
    Ensures (execTpiRdPc d s) (HoldsWaiting (.tpiRdPc d) s) := by
  refine ensures_onTpi fun dr t _ _ => ?_
  dsimp only
  split <;> exact (holdsWaiting_of_eq rfl).completes _

theorem tpiIrqin_holdsWaiting (d : Nat) (n : Fin 5) (level : Bool) (s : State) :
    Ensures (execTpiIrqin d n level s) (HoldsWaiting (.tpiIrqin d n level) s) := by
  refine ensures_onTpi fun dr t _ _ => HoldsWaiting.completes ?_ _
  have hlevel : ∀ k : Controller, k.SameRequests (k.mapTpi fun t => t.setLevel n level) :=
    fun k => mapTpi_sameRequests k
  split
  · rw [State.mapTpi, State.mapTpi, mapCtl_mapCtl]
    refine mapCtl_irqUpdate_holdsWaiting (fun k => (hlevel k).trans ?_) s d
    exact mapTpi_sameRequests _
  · exact mapCtl_holdsWaiting hlevel s d

theorem busNotify_holdsWaiting (q : Nat) (l : Line) (v : Bool) (s : State) :
    Ensures (execBusNotify q l v s) (HoldsWaiting (.busNotify q l v) s) := by
  unfold execBusNotify
  split
  · exact (notify_holdsWaiting s q l v).completes _
  · exact ensures_refused _ _

theorem parWrdata_holdsWaiting (v : Byte) (s : State) :
    Ensures (execParWrdata v s) (HoldsWaiting (.parWrdata v) s) := by
  refine HoldsWaiting.completes (holdsWaiting_of_eq ?_) _
  split <;> rfl

theorem parWrack_holdsWaiting (v : Bool) (s : State) :
    Ensures (execParWrack v s) (HoldsWaiting (.parWrack v) s) := by
  refine HoldsWaiting.completes (holdsWaiting_of_eq ?_) _
  split <;> rfl

theorem dskOffset_holdsWaiting (table : List Nat) (track sector : Nat) (s : State) :
    Ensures (execDskOffset table track sector s) (HoldsWaiting (.dskOffset table track sector) s) := by
  unfold execDskOffset
  split
  · exact ensures_refused _ _
  · exact (holdsWaiting_of_eq rfl).completes _

/-- R291: every operation holds the waiting requests. -/
theorem exec_holdsWaiting (i : Instr) (s : State) : Ensures (exec i s) (HoldsWaiting i s) := by
  cases i with
  | sysReset => exact ensures_done fun _ _ _ _ _ _ _ _ hdetaches => nomatch hdetaches
  | sysPwron d => exact sysPwron_holdsWaiting d s
  | sysPwroff d => exact sysPwroff_holdsWaiting d s
  | sysMount d f bytes len wp => exact sysMount_holdsWaiting d f bytes len wp s
  | sysUnmount d => exact sysUnmount_holdsWaiting d s
  | irqRetry => exact irqRetry_holdsWaiting s
  | irqUpdate d => exact ensures_onPowered fun _ _ _ => (irqUpdate_holdsWaiting s d).completes _
  | mechTick d => exact mechTick_holdsWaiting d s
  | mechCtrl d c =>
    exact ensures_onPowered fun _ _ _ => (holdsWaiting_of_eq
      (mapDrive_keeps_controllers (fun _ => Drive.control_ctl ..) s d)).completes _
  | mechRegen d =>
    exact ensures_onPowered fun _ _ _ => (holdsWaiting_of_eq
      (mapDrive_keeps_controllers (fun _ => Drive.regen_ctl ..) s d)).completes _
  | mechStep d new =>
    exact ensures_onPowered fun _ _ _ => (holdsWaiting_of_eq
      (mapDrive_keeps_controllers (fun _ => Drive.step_ctl ..) s d)).completes _
  | viabRdPb d | viadRdPb d | viaRdDdrb d | viaRdDdra d | viaRdCt d =>
    exact ensures_onVia fun _ _ _ _ _ => (holdsWaiting_of_eq rfl).completes _
  | viabRdPa d | viadRdPa d =>
    exact ensures_onVia fun _ _ _ _ _ => (setCa1_holdsWaiting s d _ _).completes _
  | viabWrPa d | viadWrPa d =>
    refine ensures_onVia fun _ _ _ _ _ => HoldsWaiting.completes ?_ _
    rw [State.setCa1, mapCtl_mapCtl]
    exact mapCtl_irqUpdate_holdsWaiting
      (fun k => (mapVia_sameRequests _ k).trans (mapVia_sameRequests _ _)) s d
  | viabWrPb d =>
    exact ensures_onVia fun _ _ _ _ _ => HoldsWaiting.completes (HoldsWaiting.before
      (mapCtl_holdsWaiting (fun k => mapVia_sameRequests _ k) s d) (applyBusOutputs_controllers _ d)) _
  | viadWrPb d =>
    exact ensures_onVia fun _ _ _ _ _ => HoldsWaiting.completes (HoldsWaiting.before
      (mapCtl_holdsWaiting (fun k => mapVia_sameRequests _ k) s d) (applyControl_controllers _ d)) _
  | viaWrDdrb d c =>
    exact ensures_onVia fun _ _ _ _ _ => HoldsWaiting.completes (HoldsWaiting.before
      (mapCtl_holdsWaiting (fun k => mapVia_sameRequests _ k) s d) (applyPortB_controllers _ d c)) _
  | viaWrDdra d =>
    exact ensures_onVia fun _ _ _ _ _ => HoldsWaiting.completes
      (mapCtl_holdsWaiting (fun k => mapVia_sameRequests _ k) s d) _
  | viaWrCt d | viaOtherirq d =>
    exact ensures_onVia fun _ _ _ _ _ => HoldsWaiting.completes
      (mapCtl_irqUpdate_holdsWaiting (fun k => mapVia_sameRequests _ k) s d) _
  | tpiRdPa d | tpiRdPb d | tpiRdDdra d | tpiRdDdrb d | tpiRdDdrc d | tpiRdCr d | tpiWrAir d =>
    exact ensures_onTpi fun _ _ _ _ => (holdsWaiting_of_eq rfl).completes _
  | tpiRdAir d =>
    exact ensures_onTpi fun _ _ _ _ => HoldsWaiting.completes
      (mapCtl_irqUpdate_holdsWaiting (fun k => mapTpi_sameRequests k) s d) _
  | tpiWrCr d v =>
    exact ensures_onTpi fun _ _ _ _ => HoldsWaiting.completes
      (mapCtl_irqUpdate_holdsWaiting (fun k => applyAck_sameRequests s.params k) s d) _
  | tpiWrPc d v | tpiWrDdrc d v =>
    exact ensures_onTpi fun _ _ _ _ => HoldsWaiting.completes
      (mapCtl_holdsWaiting (fun k => applyAck_sameRequests s.params k) s d) _
  | tpiWrPa d | tpiWrPb d | tpiWrDdra d | tpiWrDdrb d | tpiHostwr d =>
    exact ensures_onTpi fun _ _ _ _ => HoldsWaiting.completes
      (mapCtl_holdsWaiting (fun k => mapTpi_sameRequests k) s d) _
  | tpiRdPc d => exact tpiRdPc_holdsWaiting d s
  | tpiIrqin d n level => exact tpiIrqin_holdsWaiting d n level s
  | tpiHostrd d => exact ensures_onTpiDrive fun _ _ _ => (holdsWaiting_of_eq rfl).completes _
  | busSet p l v =>
    exact ensures_onParticipant fun _ => (busSet_holdsWaiting s p l v).completes _
  | busNotify q l v => exact busNotify_holdsWaiting q l v s
  | parWrdata v => exact parWrdata_holdsWaiting v s
  | parWrack v => exact parWrack_holdsWaiting v s
  | dskOffset table track sector => exact dskOffset_holdsWaiting table track sector s
  | busGet | parEnable | parRddata | parRdack | gcrEnc4 | gcrDec5 | gcrEncsec | gcrDechdr
  | gcrDecdata | dskBuild => exact (holdsWaiting_of_eq rfl).completes _

/-- Settles O17: every operation holds the waiting requests, drive by drive. -/
theorem waitingRequestNeverDropped : Obligations.WaitingRequestNeverDropped := by
  intro i s t d dr dr' c hexec hdr hdr'
  exact exec_holdsWaiting i s t hexec d dr.ctl dr'.ctl c (controllers_of_some hdr)
    (controllers_of_some hdr')

end Sys2Proof.Machine
end

section
/-! Interrupt delivery and power (R275 to R280, R292): `IRQ.UPDATE` as an operation, what a firing of
the retry timer delivers, and the operations that a drive that is off refuses. -/

namespace Sys2Proof.Machine

set_option Elab.async false

/-! ### `IRQ.UPDATE` (R275 to R277) -/

theorem mapCtl_id {s : State} {d : Nat} {dr : Drive} (hdr : s.drives[d]? = some dr) :
    s.mapCtl d id = s :=
  mapDrive_of_fixed hdr rfl

theorem execIrqUpdate_of_on {s : State} {d : Nat} {dr : Drive} (hdr : s.drives[d]? = some dr)
    (hon : dr.powered = true) : execIrqUpdate d s = .next ((s.irqUpdate d).returns .none) :=
  onPowered_of_on hdr hon _

/-- Settles O59: `IRQ.UPDATE` after a register change that changes nothing. -/
theorem irqUpdateResult : Obligations.IrqUpdateResult := by
  intro s d dr hdr
  refine ⟨fun hoff => onPowered_of_off hdr hoff _, fun hon =>
    ⟨_, execIrqUpdate_of_on hdr hon, rfl, fun b dd hctl => ?_, fun c hctl => ?_⟩⟩
  · have hupdated := mapCtl_irqUpdate_viaUpdated (f := id) hdr hctl
    rw [mapCtl_id hdr] at hupdated
    exact hupdated.returns _
  · have hupdated := mapCtl_irqUpdate_tpiUpdated (f := id) hdr hctl
    rw [mapCtl_id hdr] at hupdated
    exact hupdated.returns _

/-! ### `IRQ.RETRY` (R279, R280) -/

theorem deliver_sameRegs (k : Controller) : k.SameRegs k.deliver := by
  cases k with
  | via b dd => exact ⟨⟨rfl, rfl, rfl, rfl, rfl, rfl, rfl⟩, ⟨rfl, rfl, rfl, rfl, rfl, rfl, rfl⟩⟩
  | tpi t => exact ⟨rfl, rfl, rfl, rfl, rfl, rfl, rfl, rfl, rfl, rfl, rfl⟩

/-- R279: the chips delivered are those that wait while no other chip of the drive requests. -/
theorem deliverable_eq_filter (k : Controller) :
    k.deliverable = [ChipId.viab, .viad, .tpi].filter fun c => k.waits c && !k.otherAsks c := by
  cases k with
  | via b dd =>
    simp only [Controller.deliverable, Controller.waits, Controller.otherAsks, List.filter]
    cases b.irqRetry && !dd.chipIrq <;> cases dd.irqRetry && !b.chipIrq <;> rfl
  | tpi t =>
    simp only [Controller.deliverable, Controller.waits, Controller.otherAsks, List.filter]
    cases t.irqRetry <;> rfl

theorem execIrqRetry_of_armed {s : State} (h : s.retryArmed = true) :
    execIrqRetry s = .next ((((List.range s.drives.length).foldl State.retryDrive
      s).recountRetry).returns .none) :=
  if_pos h

/-- Settles O60: the drives are those of `Drive.retried`, the events those of `deliveries`. -/
theorem irqRetryResult : Obligations.IrqRetryResult := by
  intro s
  refine ⟨fun harmed => ?_, fun hdisarmed => if_neg (by simp [hdisarmed])⟩
  have hexec := execIrqRetry_of_armed harmed
  rw [foldl_retryDrive_all] at hexec
  refine ⟨_, hexec, rfl, ⟨rfl, rfl, rfl, rfl⟩, rfl, List.length_map .., rfl, ?_, fun d dr hdr => ?_⟩
  · refine congrArg (fun f => ((List.range s.drives.length).flatMap f).reverse ++ s.events)
      (funext fun d => ?_)
    cases hdr : s.drives[d]? with
    | none => simp only [State.deliveries, hdr]
    | some dr => simp only [State.deliveries, hdr, deliverable_eq_filter]
  · refine ⟨dr.retried, by simp [hdr], Drive.retried_of_off, fun hon => ?_⟩
    rw [Drive.retried_of_on hon]
    exact ⟨⟨rfl, rfl, rfl, rfl, rfl, rfl⟩, rfl, deliver_sameRegs dr.ctl, deliver_asks_waits dr.ctl⟩

/-! ### A drive that is off (R292) -/

/-- There is no step, because drive `d` is off, lacks the chip, or does not spin. -/
def Halted (d : Nat) (o : Out) : Prop :=
  o = .refused (.drivePoweredOff d) ∨ o = .refused (.noSuchChip d) ∨ o = .refused (.timerDisarmed d)

section
variable {s : State} {d : Nat} {dr : Drive}

theorem onPowered_halted (hdr : s.drives[d]? = some dr) (hoff : dr.powered = false)
    (k : Drive → Out) : Halted d (onPowered s d k) :=
  .inl (onPowered_of_off hdr hoff k)

theorem onVia_halted (hdr : s.drives[d]? = some dr) (hoff : dr.powered = false)
    (k : Drive → ViaChip → ViaChip → Out) : Halted d (onVia s d k) := by
  cases hctl : dr.ctl with
  | via b dd => exact .inl (by simp [onVia, onDrive_of_some hdr, hctl, hoff])
  | tpi t => exact .inr (.inl (onVia_of_tpi hdr hctl k))

theorem onTpi_halted (hdr : s.drives[d]? = some dr) (hoff : dr.powered = false)
    (k : Drive → TpiChip → Out) : Halted d (onTpi s d k) := by
  cases hctl : dr.ctl with
  | via b dd => exact .inr (.inl (onTpi_of_via hdr hctl k))
  | tpi t => exact .inl (onTpi_of_off hdr hctl hoff k)

/-- R190, R292: the rotation timer of a drive that is off is disarmed. -/
theorem mechTick_halted (hdr : s.drives[d]? = some dr) (hoff : dr.powered = false)
    (hsound : dr.Sound s.params) : Halted d (execMechTick d s) := by
  refine .inr (.inr (execMechTick_of_disarmed hdr ?_))
  rw [hsound.timer.armed, hoff, Bool.false_and]

/-- R160, R292: the participant of a drive that is off cannot act. -/
theorem onParticipant_of_off (hdr : s.drives[d]? = some dr) (hoff : dr.powered = false) (k : Out) :
    onParticipant s (d + 1) k = .refused (.drivePoweredOff d) := by
  simp [onParticipant, hdr, hoff]

theorem addressedDrive_of_needsPower {i : Instr} (h : needsPower d i = true) :
    addressedDrive i = some d := by
  unfold needsPower at h
  split at h
  · cases h
  · exact congrArg some (eq_of_beq h)
  · cases h
  · cases h
  · cases h
  · exact eq_of_beq h

/-- R292: an operation addressed to a drive that is off has no step, if it needs power. -/
theorem exec_halted {i : Instr} (hneeds : needsPower d i = true) (hdr : s.drives[d]? = some dr)
    (hoff : dr.powered = false) (hsound : dr.Sound s.params) : Halted d (exec i s) := by
  have hd := addressedDrive_of_needsPower hneeds
  cases i <;> cases hd
  case sysPwron | sysMount | sysUnmount | tpiHostrd => cases hneeds
  case mechTick => exact mechTick_halted hdr hoff hsound
  case sysPwroff | mechCtrl | mechRegen | mechStep | irqUpdate =>
    exact onPowered_halted hdr hoff _
  case viabRdPb | viabRdPa | viabWrPb | viabWrPa | viadRdPb | viadRdPa | viadWrPb | viadWrPa
      | viaRdDdrb | viaRdDdra | viaWrDdrb | viaWrDdra | viaRdCt | viaWrCt | viaOtherirq =>
    exact onVia_halted hdr hoff _
  case tpiRdPa | tpiRdPb | tpiRdPc | tpiRdDdra | tpiRdDdrb | tpiRdDdrc | tpiRdCr | tpiRdAir
      | tpiWrPa | tpiWrPb | tpiWrPc | tpiWrDdra | tpiWrDdrb | tpiWrDdrc | tpiWrCr | tpiWrAir
      | tpiIrqin | tpiHostwr =>
    exact onTpi_halted hdr hoff _

end

/-- Settles O15: by the check in front of each operation; the rotation timer by the invariant. -/
theorem nothingRunsWhileOff : Obligations.NothingRunsWhileOff := by
  intro s d dr hs hdr hoff
  exact ⟨fun i hneeds => exec_halted hneeds hdr hoff (hs.drive hdr),
    fun l v => onParticipant_of_off hdr hoff _⟩

end Sys2Proof.Machine
end

section
/-! `chip_reset` (R301): what it makes of a drive, and the one event it can emit. -/

namespace Sys2Proof.Machine

set_option Elab.async false

/-- A chip whose output falls waits no more, and one whose output was 0 did not wait (R277). -/
theorem viaClear_latchIrq (P : Params) {c : ViaChip} (hc : c.irqRetry = true → c.chipIrq = true)
    (other : Bool) : c.clear.latchIrq (viaIrqFn P c.clear) other = ViaChip.afterReset := by
  cases hirq : c.chipIrq with
  | true => simp [ViaChip.latchIrq, viaIrqFn, ViaChip.clear, ViaChip.afterReset, hirq]
  | false =>
    have hwaits : c.irqRetry = false := by simpa [hirq] using hc
    simp [ViaChip.latchIrq, viaIrqFn, ViaChip.clear, ViaChip.afterReset, hirq, hwaits]

theorem tpiClear_latchIrq (P : Params) {t : TpiChip} (ht : t.irqRetry = true → t.chipIrq = true) :
    t.clear.latchIrq (tpiIrqFn P t.clear) = { TpiChip.afterReset with hsDav := t.hsDav } := by
  cases hirq : t.chipIrq with
  | true => simp [TpiChip.latchIrq, tpiIrqFn, TpiChip.clear, TpiChip.afterReset, hirq]
  | false =>
    have hwaits : t.irqRetry = false := by simpa [hirq] using ht
    simp [TpiChip.latchIrq, tpiIrqFn, TpiChip.clear, TpiChip.afterReset, hirq, hwaits]

theorem clear_updateIrq_eq_cleared (P : Params) {k : Controller} (hk : k.RetryRequests) :
    k.clear.updateIrq P = k.cleared := by
  cases k with
  | via b dd =>
    exact congrArg₂ Controller.via (viaClear_latchIrq P hk.1 _) (viaClear_latchIrq P hk.2 _)
  | tpi t => exact congrArg Controller.tpi (tpiClear_latchIrq P hk)

/-- A drive after `chip_reset`. -/
def Drive.resetChips (P : Params) (dr : Drive) : Drive :=
  Drive.updateIrq P { dr with ctl := dr.ctl.clear }

theorem Drive.resetChips_eq (P : Params) {dr : Drive} (h : dr.ctl.RetryRequests) :
    dr.resetChips P = { dr with ctl := dr.ctl.cleared, cpuIrq := false } := by
  have hcpu : (dr.resetChips P).cpuIrq = false := clear_updateIrq_request P dr.ctl
  rw [← hcpu, ← clear_updateIrq_eq_cleared P h]
  rfl

theorem chipReset_drives (s : State) (d : Nat) :
    (s.chipReset d).drives = s.drives.modify d (Drive.resetChips s.params) := by
  simp [State.chipReset, List.modify_modify_eq]
  rfl

/-- The CPU interrupt input of drive `d` is 1. -/
def State.cpuAsked (s : State) (d : Nat) : Bool :=
  ((s.drives[d]?).map fun dr => dr.cpuIrq).getD false

/-- R277, R301: a `chip_reset` emits that the CPU interrupt input fell, if it was 1. -/
theorem chipReset_events (s : State) (d : Nat) :
    (s.chipReset d).events = (if s.cpuAsked d then [.cpuIrq d false] else []) ++ s.events := by
  cases hdr : s.drives[d]? with
  | none =>
    have hnone : (s.mapCtl d Controller.clear).drives[d]? = none := by simp [hdr]
    rw [State.chipReset, irqUpdate_of_none hnone]
    simp [State.cpuAsked, hdr]
  | some dr =>
    rw [State.chipReset, irqUpdate_of_some (mapCtl_drive hdr _)]
    cases hasked : dr.cpuIrq <;> simp [State.cpuAsked, hdr, hasked, clear_updateIrq_request]

end Sys2Proof.Machine
end

section
/-! A drive that is off (R292, R303): no operation but a reset changes it unless addressed to it, its
rotation timer stays disarmed, and so it gives no ready pulse until it is powered on. -/

namespace Sys2Proof.Machine

set_option Elab.async false

/-! ### The bus and the retry timer pass over a drive that is off (R165, R279) -/

theorem Drive.notified_of_off {dr : Drive} (hoff : dr.powered = false) (P : Params) (l : Line)
    (v : Bool) : Drive.notified P l v dr = dr := by
  cases hctl : dr.ctl <;> simp [Drive.notified, hctl, hoff]

section
variable {s : State} {d : Nat} {dr : Drive}

theorem notify_drive_of_off (hdr : s.drives[d]? = some dr) (hoff : dr.powered = false) (q : Nat)
    (l : Line) (v : Bool) : (s.notify q l v).drives[d]? = some dr := by
  cases q with
  | zero => exact hdr
  | succ e => by_cases he : e = d <;> simp [hdr, he, Drive.notified_of_off hoff]

theorem notifyAll_drive_of_off (hdr : s.drives[d]? = some dr) (hoff : dr.powered = false) (l : Line)
    (v : Bool) : (s.notifyAll l v).drives[d]? = some dr :=
  List.foldlRecOn _ _ (motive := fun t : State => t.drives[d]? = some dr) hdr
    fun _ ht q _ => notify_drive_of_off ht hoff q l v

theorem busSet_drive_of_off (hdr : s.drives[d]? = some dr) (hoff : dr.powered = false) (p : Nat)
    (l : Line) (v : Bool) : (s.busSet p l v).drives[d]? = some dr := by
  rcases busSet_cases s p l v with ⟨-, heq⟩ | ⟨-, heq⟩ <;> rw [heq]
  · exact hdr
  · exact notifyAll_drive_of_off (s := (s.setLatch p l v).setLine l _) hdr hoff _ _

theorem release_drive_of_off (hdr : s.drives[d]? = some dr) (hoff : dr.powered = false) (p : Nat) :
    (s.release p).drives[d]? = some dr := by
  rw [(release_quiet s p).1]
  exact busSet_drive_of_off hdr hoff _ _ _

theorem irqRetry_drive_of_off (hdr : s.drives[d]? = some dr) (hoff : dr.powered = false) :
    Ensures (execIrqRetry s) fun t => t.drives[d]? = some dr := by
  unfold execIrqRetry
  split
  · rw [foldl_retryDrive_all]
    exact ensures_done (by simp [hdr, Drive.retried_of_off hoff])
  · exact ensures_refused _ _

/-! ### Operations that are not addressed to the drive -/

theorem busNotify_drive_of_off (hdr : s.drives[d]? = some dr) (hoff : dr.powered = false) (q : Nat)
    (l : Line) (v : Bool) : Ensures (execBusNotify q l v s) fun t => t.drives[d]? = some dr := by
  unfold execBusNotify
  split
  · exact ensures_done (notify_drive_of_off hdr hoff q l v)
  · exact ensures_refused _ _

theorem dskOffset_drives (table : List Nat) (track sector : Nat) (s : State) :
    Ensures (execDskOffset table track sector s) fun t => t.drives = s.drives := by
  unfold execDskOffset
  split
  · exact ensures_refused _ _
  · exact ensures_done rfl

/-- R165, R279: whatever is addressed to no drive passes over one that is off, but for a reset. -/
theorem exec_drive_of_unaddressed (hdr : s.drives[d]? = some dr) (hoff : dr.powered = false)
    {i : Instr} (hi : addressedDrive i = none) (hreset : i ≠ .sysReset) :
    Ensures (exec i s) fun t => t.drives[d]? = some dr := by
  cases i <;> cases hi
  case sysReset => exact absurd rfl hreset
  case irqRetry => exact irqRetry_drive_of_off hdr hoff
  case busSet p l v =>
    exact ensures_onParticipant fun _ => ensures_done (busSet_drive_of_off hdr hoff p l v)
  case busNotify q l v => exact busNotify_drive_of_off hdr hoff q l v
  case dskOffset table track sector =>
    exact fun t h => (congrArg (·[d]?) (dskOffset_drives table track sector s t h)).trans hdr
  case parWrdata | parWrack => exact ensures_done (by simpa [apply_ite State.drives] using hdr)
  case busGet | parEnable | parRddata | parRdack | gcrEnc4 | gcrDec5 | gcrEncsec | gcrDechdr
      | gcrDecdata | dskBuild =>
    exact ensures_done hdr

/-- R79, R165: an operation addressed to another drive reaches this one, if at all, by an edge of
ATN, which it does not hear. -/
theorem exec_drive_of_addressed_other (hdr : s.drives[d]? = some dr) (hoff : dr.powered = false)
    {i : Instr} {e : Nat} (hi : addressedDrive i = some e) (he : d ≠ e) :
    Ensures (exec i s) fun t => t.drives[d]? = some dr := by
  cases hbus : reachesBus i with
  | false => exact fun t h => ((exec_local hi hbus s t h).others.2 d he).trans hdr
  | true =>
    rcases reachesBus_cases hbus with rfl | ⟨x, rfl⟩ | ⟨p, l, v, rfl⟩ | ⟨x, v, rfl⟩ | ⟨x, v, rfl⟩ <;>
      cases hi
    · exact ensures_onPowered fun _ _ _ => ensures_done
        (release_drive_of_off (((switchOff_local s e).others.2 d he).trans hdr) hoff (1 + e))
    · exact ensures_onVia fun _ _ _ _ _ => ensures_done
        (by simp [applyBusOutputs_drives, hdr, he.symm])
    · exact ensures_onVia fun _ _ _ _ _ => ensures_done
        (by simp [applyPortB, applyBusOutputs_drives, hdr, he.symm])

end

/-! ### The rotation timer (R182, R190) -/

/-- Drive `d` is off and its rotation timer is disarmed. -/
def State.Stopped (d : Nat) (s : State) : Prop :=
  ∃ dr, s.drives[d]? = some dr ∧ dr.powered = false ∧ dr.mech.timerArmed = false

section
variable {s : State} {d : Nat} {dr : Drive}

theorem Halted.ensures {o : Out} (h : Halted d o) (Q : State → Prop) : Ensures o Q := by
  rcases h with rfl | rfl | rfl <;> exact ensures_refused _ _

theorem stopped_mapDrive (hdr : s.drives[d]? = some dr) {f : Drive → Drive}
    (hoff : (f dr).powered = false) (htimer : (f dr).mech.timerArmed = false) :
    (s.mapDrive d f).Stopped d :=
  ⟨f dr, by simp [hdr], hoff, htimer⟩

theorem sysMount_stopped (hdr : s.drives[d]? = some dr) (hoff : dr.powered = false)
    (htimer : dr.mech.timerArmed = false) (f : Format) (bytes : List Host.Cell) (len : Nat)
    (wp : Bool) : Ensures (execSysMount d f bytes len wp s) (State.Stopped d) := by
  refine ensures_onDrive fun _ _ => ?_
  split
  · exact ensures_refused _ _
  · refine ensures_done (stopped_mapDrive hdr ?_ ?_)
    · simpa [Drive.mount] using hoff
    · simpa [Drive.mount] using htimer

/-- R292: of the operations addressed to a drive that is off, mount, unmount and the host's read of
the acknowledge line complete; none of them arms the timer. -/
theorem exec_stopped_of_addressed (hdr : s.drives[d]? = some dr) (hoff : dr.powered = false)
    (htimer : dr.mech.timerArmed = false) {i : Instr} (hi : addressedDrive i = some d)
    (hon : i ≠ .sysPwron d) : Ensures (exec i s) (State.Stopped d) := by
  cases i <;> cases hi
  case sysPwron => exact absurd rfl hon
  case sysMount f bytes len wp => exact sysMount_stopped hdr hoff htimer f bytes len wp
  case sysUnmount =>
    exact ensures_onDrive fun _ _ => ensures_done
      (stopped_mapDrive (f := fun dr => dr.unmount s.params) hdr hoff rfl)
  case tpiHostrd =>
    exact ensures_onTpiDrive fun _ _ _ => ensures_done ⟨dr, hdr, hoff, htimer⟩
  case mechTick =>
    exact Halted.ensures (.inr (.inr (execMechTick_of_disarmed hdr htimer))) _
  case sysPwroff | mechCtrl | mechRegen | mechStep | irqUpdate =>
    exact (onPowered_halted hdr hoff _).ensures _
  case viabRdPb | viabRdPa | viabWrPb | viabWrPa | viadRdPb | viadRdPa | viadWrPb | viadWrPa
      | viaRdDdrb | viaRdDdra | viaWrDdrb | viaWrDdra | viaRdCt | viaWrCt | viaOtherirq =>
    exact (onVia_halted hdr hoff _).ensures _
  case tpiRdPa | tpiRdPb | tpiRdPc | tpiRdDdra | tpiRdDdrb | tpiRdDdrc | tpiRdCr | tpiRdAir
      | tpiWrPa | tpiWrPb | tpiWrPc | tpiWrDdra | tpiWrDdrb | tpiWrDdrc | tpiWrCr | tpiWrAir
      | tpiIrqin | tpiHostwr =>
    exact (onTpi_halted hdr hoff _).ensures _

/-- R301: a reset disarms every timer and leaves the power alone. -/
theorem reset_powered_timer (P : Params) (dr : Drive) :
    (dr.reset P).powered = dr.powered ∧ (dr.reset P).mech.timerArmed = false := by
  simp [Drive.reset, Drive.resetMech]

theorem sysReset_stopped (h : s.Stopped d) : Ensures (execSysReset s) (State.Stopped d) := by
  obtain ⟨dr, hdr, hoff, -⟩ := h
  obtain ⟨hpow, htimer⟩ := reset_powered_timer s.params dr
  have hreset : s.resetAll.Stopped d :=
    ⟨dr.reset s.params, by simp [resetAll_drives, hdr], hpow.trans hoff, htimer⟩
  exact ensures_done hreset

/-- Only a power-on starts a drive that is off. -/
theorem exec_stopped (h : s.Stopped d) {i : Instr} (hon : i ≠ .sysPwron d) :
    Ensures (exec i s) (State.Stopped d) := by
  by_cases hreset : i = .sysReset
  · exact hreset ▸ sysReset_stopped h
  obtain ⟨dr, hdr, hoff, htimer⟩ := h
  cases hi : addressedDrive i with
  | none =>
    exact fun t ht => ⟨dr, exec_drive_of_unaddressed hdr hoff hi hreset t ht, hoff, htimer⟩
  | some e =>
    by_cases he : d = e
    · exact exec_stopped_of_addressed hdr hoff htimer (he ▸ hi) hon
    · exact fun t ht => ⟨dr, exec_drive_of_addressed_other hdr hoff hi he t ht, hoff, htimer⟩

theorem State.Stopped.mechTick (h : s.Stopped d) :
    exec (.mechTick d) s = .refused (.timerDisarmed d) := by
  obtain ⟨dr, hdr, -, htimer⟩ := h
  exact execMechTick_of_disarmed hdr htimer

/-- R195: without a tick of the drive, no ready pulse of it. -/
theorem exec_pulses_of_stopped (h : s.Stopped d) {i : Instr} {t : State}
    (hexec : exec i s = .next t) :
    t.events.count (.readyPulse d) = s.events.count (.readyPulse d) := by
  have htick : i ≠ .mechTick d := by
    rintro rfl
    rw [h.mechTick] at hexec
    cases hexec
  rw [oneReadyPulsePerTick i s t d hexec, if_neg htick, Nat.add_zero]

/-- A run without a power-on of the drive. -/
theorem execAll_stopped {ops : List Instr} {t : State} (h : s.Stopped d)
    (hon : .sysPwron d ∉ ops) (hrun : execAll ops s = .next t) :
    t.Stopped d ∧ t.events.count (.readyPulse d) = s.events.count (.readyPulse d) := by
  induction ops generalizing s with
  | nil =>
    cases hrun
    exact ⟨h, rfl⟩
  | cons i is ih =>
    obtain ⟨hi, his⟩ := List.ne_and_not_mem_of_not_mem_cons hon
    cases hexec : exec i s with
    | refused r => simp [execAll, hexec] at hrun
    | fault f => nomatch f
    | next u =>
      simp only [execAll, hexec] at hrun
      obtain ⟨hstopped, hcount⟩ := ih (exec_stopped h hi.symm u hexec) his hrun
      exact ⟨hstopped, hcount.trans (exec_pulses_of_stopped h hexec)⟩

end

/-! ### Power-off (R303) -/

theorem switchOff_drive {s : State} {d : Nat} {dr : Drive} (hdr : s.drives[d]? = some dr) :
    (s.switchOff d).drives[d]? =
      some (dr.resetChips s.params).powerOff := by
  simp [State.switchOff, chipReset_drives, hdr]

/-- The three releases change nothing more of the drive, which is off by then. -/
theorem switchOff_release_drive {s : State} {d : Nat} {dr : Drive} (hdr : s.drives[d]? = some dr)
    (p : Nat) : ((s.switchOff d).release p).drives[d]? =
      some (dr.resetChips s.params).powerOff :=
  release_drive_of_off (switchOff_drive hdr) rfl p

theorem sysPwroff_stopped (d : Nat) (s : State) :
    Ensures (execSysPwroff d s) (State.Stopped d) := by
  refine ensures_onPowered fun dr hdr _ => ensures_done ?_
  have hstopped : ((s.switchOff d).release (1 + d)).Stopped d :=
    ⟨_, switchOff_release_drive hdr _, rfl, rfl⟩
  exact hstopped

/-- Settles O16: a power-off stops the drive, and a run without a power-on leaves it stopped. -/
theorem noTickAfterPowerOff : Obligations.NoTickAfterPowerOff := by
  intro s t u d ops hoff hon hrun
  obtain ⟨hstopped, hcount⟩ := execAll_stopped (sysPwroff_stopped d s t hoff) hon hrun
  exact ⟨hstopped.mechTick, hcount⟩

end Sys2Proof.Machine
end

section
/-! `SYS.RESET` and `SYS.PWRON` (R300 to R302, R306): what each makes of a sound drive, and the state
it leaves. -/

namespace Sys2Proof.Machine

set_option Elab.async false

/-! ### `SYS.RESET` (R300, R301) -/

theorem resetDrive_events (s : State) (d : Nat) :
    (s.resetDrive d).events = (if s.cpuAsked d then [.cpuIrq d false] else []) ++ s.events := by
  have hasked : (s.mapCtl d (Controller.mapTpi fun t => { t with hsDav := true })).cpuAsked d =
      s.cpuAsked d := by
    cases hdr : s.drives[d]? <;> simp [State.cpuAsked, hdr]
  rw [State.resetDrive, State.mapDrive_events, chipReset_events, hasked, State.mapCtl_events]

/-- The drives below `n` reset in turn: each that asked its CPU withdraws the request. -/
theorem foldl_resetDrive_events (s : State) (n : Nat) :
    ((List.range n).foldl State.resetDrive s).events =
      (((List.range n).filter s.cpuAsked).map fun d => Event.cpuIrq d false).reverse ++
        s.events := by
  induction n with
  | zero => rfl
  | succ n ih =>
    have hasked : ((List.range n).foldl State.resetDrive s).cpuAsked n = s.cpuAsked n := by
      simp [State.cpuAsked, foldl_resetDrive_drives]
    rw [List.range_succ, List.foldl_append, List.foldl_cons, List.foldl_nil, resetDrive_events,
      hasked, ih]
    cases hn : s.cpuAsked n <;> simp [hn]

theorem resetAll_events (s : State) :
    s.resetAll.events =
      (((List.range s.drives.length).filter s.cpuAsked).map fun d => Event.cpuIrq d false).reverse ++
        s.events :=
  foldl_resetDrive_events s.withIdleBus s.drives.length

theorem resetDrive_par_draws (s : State) (d : Nat) :
    (s.resetDrive d).par = s.par ∧ (s.resetDrive d).draws = s.draws := by
  simp [State.resetDrive, State.chipReset]

theorem resetAll_par_draws (s : State) :
    s.resetAll.par = ⟨false, true, 0xFF⟩ ∧ s.resetAll.draws = s.draws :=
  List.foldlRecOn _ _
    (motive := fun t : State => t.par = s.withIdleBus.par ∧ t.draws = s.draws) ⟨rfl, rfl⟩
    fun t ht d _ => by simpa only [resetDrive_par_draws t d] using ht

theorem resetAll_requests (s : State) : s.resetAll.requests = s.requests :=
  congrArg Traits.requests (foldl_keeps_traits resetDrive_traits _ s.withIdleBus)

/-- R139: sector 0 of track 1 is where the image begins. -/
theorem sectorBuffer_first {P : Params} {im : Image} (him : im.Sound P) :
    sectorBuffer P im 1 0 =
      encodeSector P 1 0 im.id1 im.id2 ((List.range 256).map im.read) := by
  have hfirst : im.table.getD (1 - 1) 0 = 0 := by
    rw [him.table, buildTable_getD P im.format (Nat.zero_le _)]
    rfl
  simp only [sectorBuffer, hfirst, Nat.zero_mul, Nat.zero_add]
  rfl

/-- The mechanism as `mech_reset` leaves it (R301). -/
def Mech.parked (m : Mech) : Mech :=
  { m with
    ht := 2, sector := 0, pos := 0, ffcount := 0, sync := false, motor := false, zone := 0, phase := 0
    timerArmed := false }

/-- The buffer after `mech_reset`: track 1, sector 0 of a mounted image. -/
def Drive.firstBuffer (P : Params) (dr : Drive) : List Byte :=
  match dr.img with
  | none => dr.buf
  | some im => encodeSector P 1 0 im.id1 im.id2 ((List.range 256).map im.read)

theorem resetMech_of_sound {P : Params} (hP : P.wf = true) {dr : Drive}
    (himage : ∀ im, dr.img = some im → im.Sound P) :
    dr.resetMech P = { dr with buf := dr.firstBuffer P, mech := dr.mech.parked } := by
  cases himg : dr.img with
  | none =>
    have hbuf : dr.firstBuffer P = dr.buf := by rw [Drive.firstBuffer, himg]
    rw [hbuf, ← himg]
    exact regen_of_no_image P (dr := { dr with mech := dr.mech.parked }) himg
  | some im =>
    have him := himage im himg
    have htrack : dr.mech.parked.ht / 2 = 1 := Nat.div_self Nat.two_pos
    have hsector : dr.mech.parked.sector = 0 := rfl
    have hbuf : dr.firstBuffer P =
        sectorBuffer P im (dr.mech.parked.ht / 2) dr.mech.parked.sector := by
      rw [htrack, hsector, sectorBuffer_first him, Drive.firstBuffer, himg]
    have htracks := maxTrack_pos hP im.format
    rw [← him.maxTrack] at htracks
    rw [hbuf, ← himg]
    exact regen_of_sound_image (dr := { dr with mech := dr.mech.parked }) himg him (le_refl 2)
      (show 2 ≤ 2 * im.maxTrack by omega)

/-- A controller of the same variant, as after a machine reset (R53). -/
def Controller.afterReset : Controller → Controller
  | .via _ _ => .via ViaChip.afterReset ViaChip.afterReset
  | .tpi _ => .tpi TpiChip.afterReset

/-- R300: a machine reset sets `hs_dav` too, which `chip_reset` leaves. -/
theorem mapTpi_cleared (k : Controller) :
    (k.mapTpi fun t => { t with hsDav := true }).cleared = k.afterReset := by
  cases k <;> rfl

/-- R300: what a machine reset makes of a sound drive. -/
theorem reset_of_sound {P : Params} (hP : P.wf = true) {dr : Drive} (h : dr.Sound P) :
    dr.reset P = { dr with
      cpuIrq := false, buf := dr.firstBuffer P, mech := dr.mech.parked, ctl := dr.ctl.afterReset } := by
  have hready : (dr.ctl.mapTpi fun t => { t with hsDav := true }).UpdateReady :=
    mapTpi_updateReady h.updateReady (fun _ => ⟨rfl, rfl⟩) fun _ => id
  have hchips := Drive.resetChips_eq P
    (dr := { dr with ctl := dr.ctl.mapTpi fun t => { t with hsDav := true } }) hready.waiting
  rw [mapTpi_cleared] at hchips
  exact (congrArg (Drive.resetMech P) hchips).trans (resetMech_of_sound hP h.image)

/-- Settles O37: every drive is reset in turn, the bus and the pair first. -/
theorem sysResetResult : Obligations.SysResetResult := by
  intro s hs
  obtain ⟨hpar, hdraws⟩ := resetAll_par_draws s
  refine ⟨State.returns { s.resetAll with retryArmed := false } .none, rfl, ?bus, hpar, rfl, rfl,
    resetAll_params s, resetAll_requests s, hdraws, ?length, resetAll_events s, fun d dr hdr => ?_⟩
  case bus => exact (resetAll_bus s).trans (by simp [State.withIdleBus, List.map_const'])
  case length => simp [resetAll_drives]
  · have hdrive : s.resetAll.drives[d]? = some (dr.reset s.params) := by
      simp [resetAll_drives, hdr]
    exact hdrive.trans (congrArg some (reset_of_sound hs.params (hs.drive hdr)))

/-- Settles O6: the machine at construction, evaluated. -/
theorem resetIsAsAfterSysReset : Obligations.ResetIsAsAfterSysReset := by
  refine ⟨rfl, fun dr hdr => ?_⟩
  simp only [State.reset, List.mem_cons, List.not_mem_nil, or_false] at hdr
  rcases hdr with rfl | rfl <;> exact ⟨rfl, rfl, rfl, rfl⟩

/-! ### `SYS.PWRON` (R302) -/

/-- Two settled retry timers agree, if the change of the drive changes nothing that waits. -/
theorem retryArmed_of_modify {s t : State} (hs : s.RetrySettled) (ht : t.RetrySettled) {d : Nat}
    {dr : Drive} {f : Drive → Drive} (hdr : s.drives[d]? = some dr)
    (hf : ((f dr).powered && (f dr).ctl.anyRetry) = (dr.powered && dr.ctl.anyRetry))
    (hdrives : t.drives = s.drives.modify d f) : t.retryArmed = s.retryArmed :=
  ht.trans (State.RetrySettled.of_modify (t := { t with retryArmed := s.retryArmed }) hs hdr hf
    hdrives rfl).symm

theorem Controller.cleared_anyRetry (k : Controller) : k.cleared.anyRetry = false := by
  cases k <;> rfl

/-- A sound drive that is off, switched on. -/
def Drive.switchOn (P : Params) (dr : Drive) : Drive := Drive.resetChips P { dr with powered := true }

/-- R276: the CPU interrupt input of a drive that is off is 0, and stays 0. -/
theorem Drive.switchOn_eq {P : Params} {dr : Drive} (h : dr.Sound P) (hoff : dr.powered = false) :
    dr.switchOn P = { dr with powered := true, ctl := dr.ctl.cleared } := by
  rw [Drive.switchOn, Drive.resetChips_eq P (dr := { dr with powered := true }) h.retry,
    ← h.off hoff]

/-- Drive `d` switched on. -/
def State.switchOn (s : State) (d : Nat) : State :=
  (s.mapDrive d fun dr => { dr with powered := true }).chipReset d

theorem switchOn_drives (s : State) (d : Nat) :
    (s.switchOn d).drives = s.drives.modify d (Drive.switchOn s.params) := by
  rw [State.switchOn, chipReset_drives, State.mapDrive_drives, List.modify_modify_eq]
  rfl

theorem OnlyDrive.trans {d : Nat} {s t u : State} (h : OnlyDrive d s t) (h' : OnlyDrive d t u) :
    OnlyDrive d s u := by
  obtain ⟨⟨hparams, hpar, hrequests, hdraws⟩, hbus, hlen, hothers⟩ := h
  obtain ⟨⟨hparams', hpar', hrequests', hdraws'⟩, hbus', hlen', hothers'⟩ := h'
  exact ⟨⟨hparams'.trans hparams, hpar'.trans hpar, hrequests'.trans hrequests,
    hdraws'.trans hdraws⟩, hbus'.trans hbus, hlen'.trans hlen,
    fun e he => (hothers' e he).trans (hothers e he)⟩

theorem switchOn_only {s : State} {d : Nat} {dr : Drive} (hdr : s.drives[d]? = some dr) :
    OnlyDrive d s (s.switchOn d) := by
  have hpower := (driveBecomes_mapDrive hdr (fun dr => { dr with powered := true }) s.result).only
  exact hpower.trans (mapCtl_irqUpdate_only _ d Controller.clear)

theorem switchOn_becomes {s : State} (hs : s.Sound) {d : Nat} {dr : Drive}
    (hdr : s.drives[d]? = some dr) (hoff : dr.powered = false) :
    DriveBecomes d s ((s.switchOn d).returns .none)
      { dr with powered := true, ctl := dr.ctl.cleared } .none := by
  obtain ⟨⟨hparams, hpar, hrequests, hdraws⟩, hbus, hothers⟩ := switchOn_only hdr
  have heq := Drive.switchOn_eq (hs.drive hdr) hoff
  have hasked : (s.mapDrive d fun dr => { dr with powered := true }).cpuAsked d = false := by
    simp [State.cpuAsked, hdr, (hs.drive hdr).off hoff]
  have hsettled : (s.switchOn d).RetrySettled :=
    irqUpdate_retrySettled (by simpa using lt_of_drive hdr)
  refine ⟨⟨⟨hparams, hpar, hrequests, hdraws⟩, hbus, hothers⟩, ?drive, ?events, ?retry, rfl⟩
  case drive => simp [switchOn_drives, hdr, heq]
  case events =>
    rw [State.returns_events, State.switchOn, chipReset_events, hasked]
    rfl
  case retry =>
    refine retryArmed_of_modify hs.retry hsettled hdr ?_ (switchOn_drives s d)
    rw [heq, Controller.cleared_anyRetry, hoff]
    rfl

/-- Settles O38: a drive that is off is switched on; one that is on is refused. -/
theorem powerOnResult : Obligations.PowerOnResult := by
  intro s d dr hs hdr
  refine ⟨fun hoff => ⟨_, ?_, switchOn_becomes hs hdr hoff⟩, fun hon => ?_⟩
  · exact (onDrive_of_some hdr _).trans (if_neg (by simp [hoff]))
  · exact (onDrive_of_some hdr _).trans (if_pos hon)

end Sys2Proof.Machine
end

section
/-! `SYS.PWROFF` (R303): what the three releases emit and leave of the bus, and the events of the CPU
interrupt input of a drive that is off by then. -/

namespace Sys2Proof.Machine

set_option Elab.async false

/-! ### The edge notifications of the releases (R161, R303) -/

theorem busSet_line_get_ne {l l' : Line} (h : l' ≠ l) (s : State) (p : Nat) (v : Bool) :
    (s.busSet p l v).bus.line.get l' = s.bus.line.get l' := by
  rw [busSet_line, Lines.get_set_ne _ _ h]

theorem busEdges_release (s : State) (p : Nat) :
    let t := s.release p
    t.busEdges = lineEvents s .data s.bus.line.data t.bus.line.data ++
      lineEvents s .clock s.bus.line.clock t.bus.line.clock ++
      lineEvents s .atn s.bus.line.atn t.bus.line.atn ++ s.busEdges := by
  intro t
  let atn := s.busSet p .atn true
  let clock := atn.busSet p .clock true
  have hatn : atn.busEdges = lineEvents s .atn s.bus.line.atn t.bus.line.atn ++ s.busEdges := by
    rw [show t.bus.line.atn = atn.bus.line.get .atn from (release_quiet s p).2]
    exact busEdges_busSet s p .atn true
  have hclock : clock.busEdges =
      lineEvents s .clock s.bus.line.clock t.bus.line.clock ++ atn.busEdges := by
    have hold : atn.bus.line.get .clock = s.bus.line.clock :=
      busSet_line_get_ne (l := .atn) (by decide) s p true
    have hnew : t.bus.line.clock = clock.bus.line.get .clock :=
      busSet_line_get_ne (l := .data) (l' := .clock) (by decide) clock p true
    rw [← hold, hnew, ← lineEvents_of_traits_eq (busSet_traits s p .atn true)]
    exact busEdges_busSet atn p .clock true
  have hdata : t.busEdges = lineEvents s .data s.bus.line.data t.bus.line.data ++ clock.busEdges := by
    have hold : clock.bus.line.get .data = s.bus.line.data :=
      (busSet_line_get_ne (l := .clock) (by decide) atn p true).trans
        (busSet_line_get_ne (l := .atn) (by decide) s p true)
    have htraits : clock.traits = s.traits := (busSet_traits ..).trans (busSet_traits ..)
    rw [← hold, ← lineEvents_of_traits_eq htraits]
    exact busEdges_busSet clock p .data true
  rw [hdata, hclock, hatn, List.append_assoc, List.append_assoc]

/-! ### The CPU interrupt input of one drive (R276, R277) -/

/-- The changes of the CPU interrupt input of drive `d` emitted so far. -/
def State.cpuIrqEvents (s : State) (d : Nat) : List Event := s.events.filter (Event.isCpuIrq d)

section
variable {s : State} {d : Nat} {dr : Drive}

theorem cpuIrqEvents_irqUpdate_of_ne {e : Nat} (he : e ≠ d) (s : State) :
    (s.irqUpdate e).cpuIrqEvents d = s.cpuIrqEvents d := by
  cases hx : s.drives[e]? with
  | none => rw [irqUpdate_of_none hx]
  | some x =>
    simp only [State.cpuIrqEvents, irqUpdate_of_some hx]
    split
    · rfl
    · exact List.filter_cons_of_neg (by simp [Event.isCpuIrq, he])

theorem cpuIrqEvents_emit_busEdge (s : State) (q : Nat) (l : Line) (v : Bool) :
    (s.emit (.busEdge q l v)).cpuIrqEvents d = s.cpuIrqEvents d :=
  List.filter_cons_of_neg (by simp [Event.isCpuIrq])

/-- R165: a notification can change the input of the drive it reaches, if that is on. -/
theorem cpuIrqEvents_notify_of_off (hdr : s.drives[d]? = some dr) (hoff : dr.powered = false)
    (q : Nat) (l : Line) (v : Bool) : (s.notify q l v).cpuIrqEvents d = s.cpuIrqEvents d := by
  cases q with
  | zero => exact cpuIrqEvents_emit_busEdge s 0 l v
  | succ e =>
    by_cases he : e = d
    · rw [he, notify_of_off hdr hoff]
    · cases hx : s.drives[e]? with
      | none => rw [notify_of_none hx]
      | some x =>
        have hedge := cpuIrqEvents_emit_busEdge (d := d) s (e + 1) l v
        cases hon : x.powered with
        | false => rw [notify_of_off hx hon]
        | true =>
          cases hctl : x.ctl with
          | tpi c => rwa [notify_of_tpi ⟨hx, hon, hctl⟩]
          | via b dd =>
            rw [notify_of_via ⟨hx, hon, hctl⟩]
            split
            · exact (cpuIrqEvents_irqUpdate_of_ne he _).trans hedge
            · exact hedge

theorem cpuIrqEvents_notifyAll_of_off (hdr : s.drives[d]? = some dr) (hoff : dr.powered = false)
    (l : Line) (v : Bool) : (s.notifyAll l v).cpuIrqEvents d = s.cpuIrqEvents d := by
  have hboth : (s.notifyAll l v).drives[d]? = some dr ∧
      (s.notifyAll l v).cpuIrqEvents d = s.cpuIrqEvents d :=
    List.foldlRecOn _ _ (motive := fun t : State => t.drives[d]? = some dr ∧
      t.cpuIrqEvents d = s.cpuIrqEvents d) ⟨hdr, rfl⟩ fun t ht q _ =>
        ⟨notify_drive_of_off ht.1 hoff q l v, (cpuIrqEvents_notify_of_off ht.1 hoff q l v).trans ht.2⟩
  exact hboth.2

theorem cpuIrqEvents_busSet_of_off (hdr : s.drives[d]? = some dr) (hoff : dr.powered = false)
    (p : Nat) (l : Line) (v : Bool) : (s.busSet p l v).cpuIrqEvents d = s.cpuIrqEvents d := by
  rcases busSet_cases s p l v with ⟨-, heq⟩ | ⟨-, heq⟩ <;> rw [heq]
  · rfl
  · exact cpuIrqEvents_notifyAll_of_off (s := (s.setLatch p l v).setLine l _) hdr hoff _ _

theorem cpuIrqEvents_release_of_off (hdr : s.drives[d]? = some dr) (hoff : dr.powered = false)
    (p : Nat) : (s.release p).cpuIrqEvents d = s.cpuIrqEvents d := by
  have hatn := busSet_drive_of_off hdr hoff p .atn true
  have hclock := busSet_drive_of_off hatn hoff p .clock true
  rw [State.release, cpuIrqEvents_busSet_of_off hclock hoff, cpuIrqEvents_busSet_of_off hatn hoff,
    cpuIrqEvents_busSet_of_off hdr hoff]

/-! ### `SYS.PWROFF` (R303) -/

theorem cpuIrqEvents_switchOff (hdr : s.drives[d]? = some dr) :
    (s.switchOff d).cpuIrqEvents d =
      (if dr.cpuIrq then [.cpuIrq d false] else []) ++ s.cpuIrqEvents d := by
  have hasked : s.cpuAsked d = dr.cpuIrq := by simp [State.cpuAsked, hdr]
  rw [State.cpuIrqEvents, State.switchOff, State.mapDrive_events, chipReset_events, hasked]
  cases dr.cpuIrq <;> simp [State.cpuIrqEvents, Event.isCpuIrq]

theorem busEdges_switchOff (s : State) (d : Nat) : (s.switchOff d).busEdges = s.busEdges :=
  busEdges_irqUpdate (s.mapCtl d Controller.clear) d

theorem switchOff_bus (s : State) (d : Nat) : (s.switchOff d).bus = s.bus :=
  (switchOff_local s d).bus

/-- What a power-off leaves, before the retry timer is recounted. -/
def State.poweredOff (s : State) (d : Nat) : State := (s.switchOff d).release (1 + d)

theorem poweredOff_fixed (s : State) (d : Nat) : SameFixed s (s.poweredOff d) := by
  constructor <;> simp [State.poweredOff, State.release, State.switchOff, State.chipReset]

theorem poweredOff_drives_length (s : State) (d : Nat) :
    (s.poweredOff d).drives.length = s.drives.length := by
  simp [State.poweredOff, State.release, busSet_drives_length, State.switchOff, chipReset_drives]

theorem poweredOff_drive (hdr : s.drives[d]? = some dr) (h : dr.ctl.RetryRequests) :
    (s.poweredOff d).drives[d]? = some { dr with
      powered := false, cpuIrq := false, ctl := dr.ctl.cleared
      mech := { dr.mech with
        motor := false, timerArmed := false, ffcount := 0, sync := false, zone := 0
        phase := 0 } } := by
  rw [State.poweredOff, switchOff_release_drive hdr, Drive.resetChips_eq s.params h]
  rfl

theorem poweredOff_latches (s : State) (d : Nat) :
    (s.poweredOff d).bus.latches = s.bus.latches.modify (d + 1) fun _ => Lines.released := by
  rw [State.poweredOff, release_latches, switchOff_bus, Nat.add_comm]

theorem busEdges_poweredOff (s : State) (d : Nat) :
    let t := s.poweredOff d
    t.busEdges = lineEvents t .data s.bus.line.data t.bus.line.data ++
      lineEvents t .clock s.bus.line.clock t.bus.line.clock ++
      lineEvents t .atn s.bus.line.atn t.bus.line.atn ++ s.busEdges := by
  intro t
  have htraits : t.traits = (s.switchOff d).traits := by simp [t, State.poweredOff, State.release]
  have hedges := busEdges_release (s.switchOff d) (1 + d)
  simp only [switchOff_bus, busEdges_switchOff] at hedges
  simp only [lineEvents_of_traits_eq htraits]
  exact hedges

theorem cpuIrqEvents_poweredOff (hdr : s.drives[d]? = some dr) :
    (s.poweredOff d).cpuIrqEvents d =
      (if dr.cpuIrq then [.cpuIrq d false] else []) ++ s.cpuIrqEvents d := by
  rw [State.poweredOff, cpuIrqEvents_release_of_off (switchOff_drive hdr) rfl,
    cpuIrqEvents_switchOff hdr]

end

/-- Settles O39: the drive is switched off first, so that it hears none of the three releases. -/
theorem powerOffResult : Obligations.PowerOffResult := by
  intro s d dr hs hdr
  refine ⟨fun hon => ?_, fun hoff => onPowered_of_off hdr hoff _⟩
  have hexec : exec (.sysPwroff d) s = .next ((s.poweredOff d).recountRetry.returns .none) :=
    onPowered_of_on hdr hon _
  have hbody : (s.poweredOff d).BodySound := (hs.switchOff d).release (1 + d)
  obtain ⟨hparams, hpar, hrequests, hdraws⟩ := poweredOff_fixed s d
  exact ⟨_, hexec, rfl, ⟨hparams, hpar, hrequests, hdraws⟩, poweredOff_drives_length s d,
    poweredOff_drive hdr (hs.drive hdr).retry, poweredOff_latches s d, hbody.bus,
    sysPwroff_reachesByAtn hs.shape d _ hexec, rfl, busEdges_poweredOff s d,
    cpuIrqEvents_poweredOff hdr⟩

end Sys2Proof.Machine
end
